-- ==== Sys2Proof/Word.lean ====
section
/-!
DEFINITION. The units of the hardware: the byte of both streams and the 16-bit quantity (R9, R31). Everything is unsigned.
-/

namespace Sys2Proof

/-- A byte: the unit of both streams (R9, R31). -/
abbrev Byte := BitVec 8

/-- A 16-bit quantity: a command payload, a checksum field, a measurement field (R14, R46). -/
abbrev Word16 := BitVec 16

end Sys2Proof
end

