-- ==== Sys2Proof/Config.lean ====
section
/-!
DEFINITION. What an instance fixes: the constants of R7, the parameters of R8 as a record, and the free values, which the
spec leaves open and nothing in Lean can evaluate (log 2, 3, 8).
-/

namespace Sys2Proof

/-- The sensor operating mode (R12, R17). Not a privilege mode (R121). -/
inductive Mode where
  /-- The sensor only replies to a read request. -/
  | passive
  /-- The sensor streams frames unsolicited. -/
  | active
  deriving DecidableEq, Repr, Inhabited

/-- The parameters of an instance (R8, R18): each OPEN in the spec, fixed for the life of the instance, readable by no
operation. -/
structure Params where
  /-- MAX_SCAN_ITER: the most single-byte pulls one scan makes (R66). -/
  maxScanIter : Nat
  /-- INIT_MODE: sampled into MODE at reset (R17). -/
  initMode : Mode
  /-- T_CMD_SETTLE: timing only (R83). -/
  tCmdSettle : Nat
  /-- T_ACTIVE_SETTLE: timing only (R70). -/
  tActiveSettle : Nat
  /-- T_RESYNC: timing only (R70). -/
  tResync : Nat
  deriving DecidableEq, Repr

namespace Config

/-! ## Identity (R2) -/

/-- The name of the hardware (R2). -/
def name : String := "PMS7003 frame core"

/-- The origin repository (R2). -/
def origin : String := "shaunrs/micropython-pms7003"

/-- The source revision (R2). -/
def revision : String := "software-reimplementation specification v7"

/-- The vendor: none stated (R2). -/
def vendor : Option String := none

/-! ## The constants of R7 -/

/-- First byte of the start marker. -/
def marker0 : Byte := 0x42
/-- Second byte of the start marker. -/
def marker1 : Byte := 0x4D
/-- Length of a data frame, marker included. -/
abbrev dataFrameLen : Nat := 32
/-- Bytes read after the marker. -/
abbrev remainderLen : Nat := 30
/-- Length of a command frame. -/
abbrev cmdFrameLen : Nat := 7
/-- Command byte: mode-set. -/
def cmdMode : Byte := 0xE1
/-- Command byte: read-request. -/
def cmdRead : Byte := 0xE2
/-- Command byte: sleep-set. -/
def cmdSleep : Byte := 0xE4
/-- Mode-set payload: passive. -/
def payloadPassive : Word16 := 0x0000
/-- Mode-set payload: active. -/
def payloadActive : Word16 := 0x0001
/-- Read-request payload. -/
def payloadRead : Word16 := 0x0000
/-- Sleep-set payload: sleep. -/
def payloadSleep : Word16 := 0x0000
/-- Sleep-set payload: wake. -/
def payloadWake : Word16 := 0x0001
/-- First frame offset of the data-frame checksum sum. -/
abbrev chkFirst : Nat := 0
/-- Last frame offset of the data-frame checksum sum. -/
abbrev chkLast : Nat := 29
/-- First frame offset of the all-zero check (90_conflicts.md C3). -/
abbrev zsumFirst : Nat := 2
/-- Last frame offset of the all-zero check. -/
abbrev zsumLast : Nat := 27
/-- Fields of a Reading. -/
abbrev nFields : Nat := 14

/-- The transport's configuration, a duty of the platform (R7, R131): no rule of the block reads it. -/
structure Transport where
  /-- Baud rate. -/
  baud : Nat
  /-- Data bits of a character. -/
  dataBits : Nat
  /-- Whether a parity bit is sent. -/
  parity : Bool
  /-- Stop bits of a character. -/
  stopBits : Nat
  /-- Whether flow control is used. -/
  flowControl : Bool
  deriving DecidableEq, Repr

/-- 9600 baud, 8 data bits, no parity, 1 stop bit, no flow control (R7, R131). -/
def transport : Transport := ⟨9600, 8, false, 1, false⟩

/-! ## The free values -/

/-- DESIGN CHOICE (log 3): MAX_SCAN_ITER of the instance of State.reset, left open by R8. -/
opaque maxScanIter : Nat

/-- DESIGN CHOICE (log 3): INIT_MODE of the instance of State.reset, left open by R8. -/
opaque initMode : Mode

/-- DESIGN CHOICE (log 3): T_CMD_SETTLE of the instance of State.reset, left open by R8. -/
opaque tCmdSettle : Nat

/-- DESIGN CHOICE (log 3): T_ACTIVE_SETTLE of the instance of State.reset, left open by R8. -/
opaque tActiveSettle : Nat

/-- DESIGN CHOICE (log 3): T_RESYNC of the instance of State.reset, left open by R8. -/
opaque tResync : Nat

/-- DESIGN CHOICE (log 8): what the transport holds when the instance is created (R27, U11): any byte sequence. -/
opaque rxqAtReset : List Byte

/-- DESIGN CHOICE (log 2): what the environment appends in the run from State.reset (R33, U16): anything. -/
opaque arrivalsAtReset : List (List Byte)

/-- The parameters of the instance of State.reset (log 3). -/
def params : Params := ⟨maxScanIter, initMode, tCmdSettle, tActiveSettle, tResync⟩

end Config

end Sys2Proof
end

