-- ==== Sys2Proof/Syntax.lean ====
section
/-!
DEFINITION. What the machine is given: the Reading's fields (R14), the instructions, one per row of spec/opcode_table.json
(R46 to R52), and the three kinds of encoded item they arrive as.
-/

namespace Sys2Proof

/-- The fields of a Reading, x[0] to x[13] in this order (R14): twelve unsigned 16-bit counts, then two bytes. -/
structure Reading where
  /-- x[0] -/
  pm1_0_cf1 : Word16
  /-- x[1] -/
  pm2_5_cf1 : Word16
  /-- x[2] -/
  pm10_cf1 : Word16
  /-- x[3] -/
  pm1_0 : Word16
  /-- x[4] -/
  pm2_5 : Word16
  /-- x[5] -/
  pm10 : Word16
  /-- x[6] -/
  count_gt_0_3 : Word16
  /-- x[7] -/
  count_gt_0_5 : Word16
  /-- x[8] -/
  count_gt_1_0 : Word16
  /-- x[9] -/
  count_gt_2_5 : Word16
  /-- x[10] -/
  count_gt_5_0 : Word16
  /-- x[11] -/
  count_gt_10 : Word16
  /-- x[12] -/
  version : Byte
  /-- x[13] -/
  error_code : Byte
  deriving DecidableEq, Repr

/-- A 7-byte command frame, by frame offset (R46). -/
abbrev CommandFrame := Vector Byte 7

/-- A 32-byte data frame, by frame offset (R48). -/
abbrev DataFrame := Vector Byte 32

/-- The rows of spec/opcode_table.json. The nine host operations come first (R52), then the rows of the two wire formats:
a command frame stands for the operation that makes it, a data frame on RX for the environment's appends (R33). DEDUCED and
DESIGN CHOICE (log 5). -/
inductive Instr where
  /-- build_command(cmd, payload) (R81) -/
  | buildCommand (cmd : Byte) (payload : Word16)
  /-- set_passive() (R84) -/
  | setPassive
  /-- set_active() (R85) -/
  | setActive
  /-- sleep() (R86) -/
  | sleep
  /-- wake() (R87) -/
  | wake
  /-- request_read() (R88) -/
  | requestRead
  /-- read_frame() (R63) -/
  | readFrame
  /-- get_reading() (R93) -/
  | getReading
  /-- get_field(idx) (R95) -/
  | getField (idx : BitVec 4)
  /-- frame.command: a command frame, as build_command makes it (R46, R81) -/
  | frameCommand (command : Byte) (payload checksum : Word16)
  /-- frame.set_passive: 42 4D E1 00 00 01 70 (R47, R84) -/
  | frameSetPassive
  /-- frame.set_active: 42 4D E1 00 01 01 71 (R47, R85) -/
  | frameSetActive
  /-- frame.request_read: 42 4D E2 00 00 01 71 (R47, R88) -/
  | frameRequestRead
  /-- frame.sleep: 42 4D E4 00 00 01 73 (R47, R86) -/
  | frameSleep
  /-- frame.wake: 42 4D E4 00 01 01 74 (R47, R87) -/
  | frameWake
  /-- frame.data: a data frame on RX (R48) -/
  | frameData (length : Word16) (fields : Reading) (checksumHi checksumLo : Byte)
  deriving DecidableEq, Repr

/-- The "format" column of the opcode table. -/
inductive Format where
  /-- HOSTOP: a 32-bit host operation word (R51) -/
  | hostOp
  /-- CMD7: a 56-bit command frame (R46) -/
  | cmd7
  /-- DATA32: a 256-bit data frame (R48) -/
  | data32
  deriving DecidableEq, Repr

/-- Bits of an item of a format. -/
def Format.bits : Format → Nat
  | .hostOp => 32
  | .cmd7 => 56
  | .data32 => 256

/-- An encoded item: at the host operation port a host operation word or a command frame, on RX a data frame (log 5). -/
inductive Transfer where
  /-- A host operation word (R51). -/
  | hostWord (w : BitVec 32)
  /-- Seven bytes that name an operation by its command frame, the first sent first (R46). -/
  | commandFrame (f : CommandFrame)
  /-- Thirty-two bytes on RX, the first received first (R48). -/
  | dataFrame (f : DataFrame)
  deriving DecidableEq, Repr

/-- The format of an encoded item. -/
def Transfer.format : Transfer → Format
  | .hostWord _ => .hostOp
  | .commandFrame _ => .cmd7
  | .dataFrame _ => .data32

/-- The format of an instruction's row. -/
def Instr.format : Instr → Format
  | .buildCommand _ _ => .hostOp
  | .setPassive => .hostOp
  | .setActive => .hostOp
  | .sleep => .hostOp
  | .wake => .hostOp
  | .requestRead => .hostOp
  | .readFrame => .hostOp
  | .getReading => .hostOp
  | .getField _ => .hostOp
  | .frameCommand _ _ _ => .cmd7
  | .frameSetPassive => .cmd7
  | .frameSetActive => .cmd7
  | .frameRequestRead => .cmd7
  | .frameSleep => .cmd7
  | .frameWake => .cmd7
  | .frameData _ _ _ _ => .data32

end Sys2Proof
end

