-- ==== Sys2Proof/Machine/Operands.lean ====
section
/-!
DEFINITION. The operand forms: big-endian byte order (R34), field assembly (R48, R49), the layout of a command frame (R46)
and the numbering of the Reading's registers (R14).
-/

namespace Sys2Proof.Machine

/-! ## Byte order (R34) -/

/-- Bits 15:8. -/
def hiByte (v : Word16) : Byte := v.extractLsb' 8 8

/-- Bits 7:0. -/
def loByte (v : Word16) : Byte := v.extractLsb' 0 8

/-- The 16-bit value of two bytes, the most significant first (R34, R49). -/
def beWord (hi lo : Byte) : Word16 := BitVec.ofNat 16 (hi.toNat * 256 + lo.toNat)

/-- The `n` bytes of a number, the most significant first. -/
def bytesBE : Nat → Nat → List Byte
  | 0, _ => []
  | n + 1, w => BitVec.ofNat 8 (w / 256 ^ n) :: bytesBE n w

theorem bytesBE_length (n w : Nat) : (bytesBE n w).length = n := by
  induction n with
  | zero => rfl
  | succ n ih => simp [bytesBE, ih]

/-! ## Frames -/

/-- The layout of a command frame (R46). -/
def commandBytes (command : Byte) (payload checksum : Word16) : CommandFrame :=
  #v[Config.marker0, Config.marker1, command, hiByte payload, loByte payload, hiByte checksum, loByte checksum]

/-- The Reading registers by the decode of R75: x[i] from frame offsets 4+2i, 5+2i, x[12] and x[13] from 28 and 29 (R49). -/
def decodeReading (f : DataFrame) : Reading where
  pm1_0_cf1 := beWord f[4] f[5]
  pm2_5_cf1 := beWord f[6] f[7]
  pm10_cf1 := beWord f[8] f[9]
  pm1_0 := beWord f[10] f[11]
  pm2_5 := beWord f[12] f[13]
  pm10 := beWord f[14] f[15]
  count_gt_0_3 := beWord f[16] f[17]
  count_gt_0_5 := beWord f[18] f[19]
  count_gt_1_0 := beWord f[20] f[21]
  count_gt_2_5 := beWord f[22] f[23]
  count_gt_5_0 := beWord f[24] f[25]
  count_gt_10 := beWord f[26] f[27]
  version := f[28]
  error_code := f[29]

/-- The layout of a data frame (R48). -/
def dataBytes (length : Word16) (r : Reading) (checksumHi checksumLo : Byte) : DataFrame :=
  #v[Config.marker0, Config.marker1, hiByte length, loByte length,
     hiByte r.pm1_0_cf1, loByte r.pm1_0_cf1, hiByte r.pm2_5_cf1, loByte r.pm2_5_cf1,
     hiByte r.pm10_cf1, loByte r.pm10_cf1, hiByte r.pm1_0, loByte r.pm1_0,
     hiByte r.pm2_5, loByte r.pm2_5, hiByte r.pm10, loByte r.pm10,
     hiByte r.count_gt_0_3, loByte r.count_gt_0_3, hiByte r.count_gt_0_5, loByte r.count_gt_0_5,
     hiByte r.count_gt_1_0, loByte r.count_gt_1_0, hiByte r.count_gt_2_5, loByte r.count_gt_2_5,
     hiByte r.count_gt_5_0, loByte r.count_gt_5_0, hiByte r.count_gt_10, loByte r.count_gt_10,
     r.version, r.error_code, checksumHi, checksumLo]

/-- The candidate frame of R72: the two marker constants, then the thirty bytes of the remainder. -/
def assembleFrame (p : List Byte) (h : p.length = Config.remainderLen) : DataFrame :=
  ⟨⟨Config.marker0 :: Config.marker1 :: p⟩, by simp [h]⟩

/-! ## The Reading registers by number -/

/-- The value of a Reading register: 16 bits for x[0] to x[11], 8 bits for x[12] and x[13] (R14). -/
inductive FieldValue where
  /-- A 16-bit register. -/
  | word (v : Word16)
  /-- An 8-bit register. -/
  | byte (v : Byte)
  deriving DecidableEq, Repr

/-- Register number `idx` of a Reading; none for 14 and 15, which name no register (R14, R54). -/
def readingField (r : Reading) (idx : BitVec 4) : Option FieldValue :=
  match idx.toNat with
  | 0 => some (.word r.pm1_0_cf1)
  | 1 => some (.word r.pm2_5_cf1)
  | 2 => some (.word r.pm10_cf1)
  | 3 => some (.word r.pm1_0)
  | 4 => some (.word r.pm2_5)
  | 5 => some (.word r.pm10)
  | 6 => some (.word r.count_gt_0_3)
  | 7 => some (.word r.count_gt_0_5)
  | 8 => some (.word r.count_gt_1_0)
  | 9 => some (.word r.count_gt_2_5)
  | 10 => some (.word r.count_gt_5_0)
  | 11 => some (.word r.count_gt_10)
  | 12 => some (.byte r.version)
  | 13 => some (.byte r.error_code)
  | _ => none

/-- The name of register number `idx` (R14). -/
def fieldName (idx : BitVec 4) : Option String :=
  match idx.toNat with
  | 0 => some "pm1_0_cf1"
  | 1 => some "pm2_5_cf1"
  | 2 => some "pm10_cf1"
  | 3 => some "pm1_0"
  | 4 => some "pm2_5"
  | 5 => some "pm10"
  | 6 => some "count_gt_0_3"
  | 7 => some "count_gt_0_5"
  | 8 => some "count_gt_1_0"
  | 9 => some "count_gt_2_5"
  | 10 => some "count_gt_5_0"
  | 11 => some "count_gt_10"
  | 12 => some "version"
  | 13 => some "error_code"
  | _ => none

end Sys2Proof.Machine
end

