-- ==== Sys2Proof/Machine/Flags.lean ====
section
/-!
DEFINITION. The sums the block computes: the command checksum (R81, R82), the data-frame checksum (R73) and the all-zero
check (R74). The one flag of the block, CV, is held as the presence of the Reading (R15) and is written in Ops.lean.
-/

namespace Sys2Proof.Machine

/-- The natural-number sum of the bytes at frame offsets `first` to `last`. -/
def byteSum (f : List Byte) (first last : Nat) : Nat :=
  (((f.drop first).take (last + 1 - first)).map BitVec.toNat).sum

/-- Low 16 bits of the sum of the five bytes before the checksum field (R81). The placeholder of the source's prose does
not enter the sum (90_conflicts.md C1). -/
def commandChecksum (command : Byte) (payload : Word16) : Word16 :=
  BitVec.ofNat 16
    (Config.marker0.toNat + Config.marker1.toNat + command.toNat + (hiByte payload).toNat + (loByte payload).toNat)

/-- Low 8 bits of the sum of frame offsets 0 to 29 (R73). -/
def dataChecksum (f : DataFrame) : Byte :=
  BitVec.ofNat 8 (byteSum f.toList Config.chkFirst Config.chkLast)

/-- The received checksum field, 16 bits (R50). -/
def rxChecksum (f : DataFrame) : Word16 := beWord f[30] f[31]

/-- The unreduced sum of frame offsets 2 to 27 (R74). -/
def zeroSum (f : DataFrame) : Nat := byteSum f.toList Config.zsumFirst Config.zsumLast

/-- R73: the derived checksum against the received low byte; the high byte `f[30]` takes no part (R50). -/
abbrev checksumPasses (f : DataFrame) : Prop := dataChecksum f = f[31]

/-- R74: the region at frame offsets 2 to 27 is all zero. -/
abbrev payloadIsZero (f : DataFrame) : Prop := zeroSum f = 0

end Sys2Proof.Machine
end

