-- ==== Sys2Proof/WellFormed.lean ====
section
/-!
DEFINITION. Which terms of `Instr` are instructions of the spec. An ill-formed term can be written but is no instruction:
a get_field of a register that does not exist (R54), a command frame whose checksum is not that of R81, and a frame.command
that spells one of the five fixed frames, which have constructors of their own (R47).
-/

namespace Sys2Proof

/-- The (command, payload) pairs of the five fixed frames (R47). -/
def fixedCommands : List (Byte × Word16) :=
  [(Config.cmdMode, Config.payloadPassive), (Config.cmdMode, Config.payloadActive),
   (Config.cmdRead, Config.payloadRead), (Config.cmdSleep, Config.payloadSleep),
   (Config.cmdSleep, Config.payloadWake)]

/-- The well-formed instructions. -/
def Instr.wellFormed : Instr → Bool
  | .buildCommand _ _ => true
  | .setPassive => true
  | .setActive => true
  | .sleep => true
  | .wake => true
  | .requestRead => true
  | .readFrame => true
  | .getReading => true
  | .getField idx => decide (idx.toNat < Config.nFields)
  | .frameCommand command payload checksum =>
    decide (checksum = Machine.commandChecksum command payload) && !(fixedCommands.contains (command, payload))
  | .frameSetPassive => true
  | .frameSetActive => true
  | .frameRequestRead => true
  | .frameSleep => true
  | .frameWake => true
  | .frameData _ _ _ _ => true

end Sys2Proof
end

