-- ==== Sys2Proof/Decode.lean ====
section
/-!
DEFINITION. From encoded items to instructions and back: the host operation word (R51 to R55), the command frame (R46, R47)
and the data frame (R48, R49). Decoding is total and rejects by name.
-/

namespace Sys2Proof

open Sys2Proof.Machine (beWord commandBytes dataBytes decodeReading bytesBE bytesBE_length)

/-- Why an encoded item is no instruction. -/
inductive DecodeError where
  /-- A reserved operation code, 0x0 or 0xA to 0xF (R53). -/
  | reservedOp (op : BitVec 4)
  /-- Bytes that do not open with the start marker are no frame (R46, R48). -/
  | noMarker
  deriving DecidableEq, Repr

/-! ## Decoding -/

/-- The host operation word (R51, R52). Bits an operation does not use are ignored (R55). -/
def decodeHostWord (w : BitVec 32) : Except DecodeError Instr :=
  match (w.extractLsb' 28 4).toNat with
  | 1 => .ok (.buildCommand (w.extractLsb' 16 8) (w.extractLsb' 0 16))
  | 2 => .ok .setPassive
  | 3 => .ok .setActive
  | 4 => .ok .sleep
  | 5 => .ok .wake
  | 6 => .ok .requestRead
  | 7 => .ok .readFrame
  | 8 => .ok .getReading
  | 9 => .ok (.getField (w.extractLsb' 24 4))
  | _ => .error (.reservedOp (w.extractLsb' 28 4))

/-- The row of a command frame's fields: the five complete frames of R47 first, frame.command for every other (log 5). -/
def commandRow (command : Byte) (payload checksum : Word16) : Instr :=
  if (command, payload, checksum) = (0xE1#8, 0x0000#16, 0x0170#16) then .frameSetPassive
  else if (command, payload, checksum) = (0xE1#8, 0x0001#16, 0x0171#16) then .frameSetActive
  else if (command, payload, checksum) = (0xE2#8, 0x0000#16, 0x0171#16) then .frameRequestRead
  else if (command, payload, checksum) = (0xE4#8, 0x0000#16, 0x0173#16) then .frameSleep
  else if (command, payload, checksum) = (0xE4#8, 0x0001#16, 0x0174#16) then .frameWake
  else .frameCommand command payload checksum

/-- The command frame (R46). -/
def decodeCommandFrame (f : CommandFrame) : Except DecodeError Instr :=
  if f[0] = Config.marker0 ∧ f[1] = Config.marker1 then
    .ok (commandRow f[2] (beWord f[3] f[4]) (beWord f[5] f[6]))
  else .error .noMarker

/-- The data frame (R48): no value of any field is illegal (R56). -/
def decodeDataFrame (f : DataFrame) : Except DecodeError Instr :=
  if f[0] = Config.marker0 ∧ f[1] = Config.marker1 then
    .ok (.frameData (beWord f[2] f[3]) (decodeReading f) f[30] f[31])
  else .error .noMarker

/-- The decoder: total on every encoded item. -/
def decode : Transfer → Except DecodeError Instr
  | .hostWord w => decodeHostWord w
  | .commandFrame f => decodeCommandFrame f
  | .dataFrame f => decodeDataFrame f

/-! ## Encoding -/

/-- A host operation word from its four fields (R51). -/
def hostWord (op idx : BitVec 4) (cmd : Byte) (payload : Word16) : BitVec 32 := op ++ idx ++ cmd ++ payload

/-- The word of an operation that uses no field but `op`; the ignored bits are written 0 (R55, log 12). -/
def plainWord (op : BitVec 4) : BitVec 32 := hostWord op 0 0 0

/-- The encoder. -/
def encode : Instr → Transfer
  | .buildCommand cmd payload => .hostWord (hostWord 1 0 cmd payload)
  | .setPassive => .hostWord (plainWord 2)
  | .setActive => .hostWord (plainWord 3)
  | .sleep => .hostWord (plainWord 4)
  | .wake => .hostWord (plainWord 5)
  | .requestRead => .hostWord (plainWord 6)
  | .readFrame => .hostWord (plainWord 7)
  | .getReading => .hostWord (plainWord 8)
  | .getField idx => .hostWord (hostWord 9 idx 0 0)
  | .frameCommand command payload checksum => .commandFrame (commandBytes command payload checksum)
  | .frameSetPassive => .commandFrame #v[0x42, 0x4D, 0xE1, 0x00, 0x00, 0x01, 0x70]
  | .frameSetActive => .commandFrame #v[0x42, 0x4D, 0xE1, 0x00, 0x01, 0x01, 0x71]
  | .frameRequestRead => .commandFrame #v[0x42, 0x4D, 0xE2, 0x00, 0x00, 0x01, 0x71]
  | .frameSleep => .commandFrame #v[0x42, 0x4D, 0xE4, 0x00, 0x00, 0x01, 0x73]
  | .frameWake => .commandFrame #v[0x42, 0x4D, 0xE4, 0x00, 0x01, 0x01, 0x74]
  | .frameData length fields checksumHi checksumLo => .dataFrame (dataBytes length fields checksumHi checksumLo)

/-! ## The opcode table's numbering -/

/-- The item whose bits are `w`, numbered as spec/opcode_table.json numbers them: one word of 32, 56 or 256 bits, bit 0 its
least significant, a frame's most significant byte first on the wire. DEDUCED (log 6) from the table's notes "bit 55 sent
first", "bit 255 received first". -/
def tableTransfer (nbits w : Nat) : Option Transfer :=
  if nbits = 32 then some (.hostWord (BitVec.ofNat 32 w))
  else if nbits = 56 then some (.commandFrame ⟨⟨bytesBE 7 w⟩, bytesBE_length 7 w⟩)
  else if nbits = 256 then some (.dataFrame ⟨⟨bytesBE 32 w⟩, bytesBE_length 32 w⟩)
  else none

/-- What the decoder reads from an opcode-table word. -/
def decodeTableWord (nbits w : Nat) : Option Instr :=
  match tableTransfer nbits w with
  | none => none
  | some t => (decode t).toOption

end Sys2Proof
end

