-- ==== Sys2Proof/Machine/State.lean ====
section
/-!
DEFINITION. The state of the machine (R13 to R24), what ends a step, and reset (R27, R127 to R129). Plain data throughout.
-/

namespace Sys2Proof.Machine

/-- PHASE: where the read_frame in progress is (R22). -/
inductive Phase where
  /-- No read in progress. -/
  | idle
  /-- Pulling single bytes and looking for the marker. -/
  | scan
  /-- Marker found, remainder not yet pulled. -/
  | payload
  /-- Remainder held in F, validation and decode in progress. -/
  | check
  deriving DecidableEq, Repr

/-- The two error kinds (R100). -/
inductive ErrorKind where
  /-- The start marker was never found. -/
  | communicationError
  /-- The marker was found and the frame failed. -/
  | dataIntegrityError
  deriving DecidableEq, Repr

/-- The five causes and what each records (R101 to R105, R107). -/
inductive ErrorCause where
  /-- R101 -/
  | noStart
  /-- R102: the number of bytes the block pull returned, 0 to 29. -/
  | shortFrame (got : BitVec 5)
  /-- R103: the received checksum field and the derived checksum. -/
  | checksumMismatch (rxChk : Word16) (derived : Byte)
  /-- R104 -/
  | zeroPayload
  /-- R105: the sensor's error code. -/
  | sensorError (code : Byte)
  deriving DecidableEq, Repr

/-- The kind of a cause (R101 to R105). -/
def ErrorCause.kind : ErrorCause → ErrorKind
  | .noStart => .communicationError
  | .shortFrame _ => .dataIntegrityError
  | .checksumMismatch _ _ => .dataIntegrityError
  | .zeroPayload => .dataIntegrityError
  | .sensorError _ => .dataIntegrityError

/-- The response that ends a host operation (R60). -/
inductive Response where
  /-- OK with no value: the five sending operations. -/
  | ok
  /-- OK with a command frame: build_command. -/
  | okFrame (f : CommandFrame)
  /-- OK with a Reading: read_frame and get_reading. -/
  | okReading (r : Reading)
  /-- A register's value: get_field. -/
  | present (v : FieldValue)
  /-- The Reading is absent: get_field. -/
  | absent
  /-- An error: read_frame and get_reading. -/
  | error (cause : ErrorCause)
  /-- The word names no operation or no register (R106). -/
  | illegalOp
  deriving DecidableEq, Repr

/-- What the outside world gives the machine, one item a step (log 1). -/
inductive Input where
  /-- An encoded item at the host operation port or on RX. -/
  | transfer (t : Transfer)
  /-- The environment appends one byte to RXQ (R33). -/
  | rxByte (b : Byte)
  /-- Reset (R127). -/
  | reset
  deriving DecidableEq, Repr

/-- The complete state of the block, exactly the components of R13: `reading` is CV with x[0..13] (R15). -/
structure Block where
  /-- CV and x[0..13]: none when CV = 0 (R14, R15). -/
  reading : Option Reading
  /-- MODE (R17). -/
  mode : Mode
  /-- LB (R19). -/
  lb : Option Byte
  /-- ITER (R20). -/
  iter : Nat
  /-- F[0..31] (R21). -/
  frame : DataFrame
  /-- PHASE (R22). -/
  phase : Phase
  /-- RXQ, the head first (R23). -/
  rxq : List Byte
  /-- TXLOG, the oldest byte first (R24). -/
  txlog : List Byte
  deriving DecidableEq, Repr

/-- The machine: the block, and beside it what is no state of the block. `params` is the instance's configuration (R8, R13),
the other three are the host (R3, R60) and the environment (R33), so that one step of the whole is a function. -/
structure State extends Block where
  /-- The instance's parameters (R8, R18), which no step writes (log 3). -/
  params : Params
  /-- The response port: the response of the latest host operation (R60, log 4). -/
  response : Option Response
  /-- What the environment appends before each coming access of RX, one list an access (R33, log 2). -/
  arrivals : List (List Byte)
  /-- What the outside world has given the machine and no step has taken yet, oldest first (log 1). -/
  inputs : List Input
  deriving DecidableEq, Repr

/-- No step of this machine ends in a fault: every failure the spec names is an error response after which the block goes
on (R100, R117, R118). Nobody raises one; safe. -/
inductive Fault where
  deriving DecidableEq, Repr

/-- Why a step may be refused: no step of this machine is. -/
inductive Refusal where
  /-- Raised by exec's arm of an instruction that has no meaning yet, by its mnemonic; safe. No arm raises it. -/
  | notModelled (mnemonic : String)
  deriving DecidableEq, Repr

namespace State

/-- DESIGN CHOICE (log 7): F at reset, which R27 leaves unspecified and nothing reads before it is written. -/
def frameAtReset : DataFrame := Vector.replicate 32 0

/-- The state of a new instance with parameters `p` over a transport that holds `q` (R27, R127, R129). -/
def resetWith (p : Params) (q : List Byte) (arrivals : List (List Byte)) : State where
  reading := none
  mode := p.initMode
  lb := none
  iter := 0
  frame := frameAtReset
  phase := .idle
  rxq := q
  txlog := []
  params := p
  response := none
  arrivals := arrivals
  inputs := []

/-- The machine right after reset (R27): the parameters, the receive queue and the environment's bytes are free values
(log 2, 3, 8). -/
def reset : State := resetWith Config.params Config.rxqAtReset Config.arrivalsAtReset

end State

end Sys2Proof.Machine
end

