-- ==== Sys2Proof/Machine/Ops.lean ====
section
/-!
DEFINITION. The shared operations: the environment's move (R33), the stream primitives (R35 to R38), the timing point
(R139), the response (R60), error entry (R117), commit (R76) and reset of a live instance (R127, R128).
-/

namespace Sys2Proof.Machine

/-! ## The environment -/

/-- The environment appends bytes to the tail of RXQ (R33). -/
def receive (bs : List Byte) (s : State) : State := { s with rxq := s.rxq ++ bs }

/-- The environment's move before an access of RX: the next list of the schedule is appended (R33, R42, log 2). -/
def envMove (s : State) : State :=
  match s.arrivals with
  | [] => s
  | bs :: rest => { receive bs s with arrivals := rest }

/-! ## The stream primitives -/

/-- The answer of a single-byte pull (R11, R35). -/
inductive RxEvent where
  /-- A byte. -/
  | byte (b : Byte)
  /-- RXQ was empty. -/
  | noData
  deriving DecidableEq, Repr

/-- How an event is kept as lookback: NoData is stored as None (R19, R67). -/
def RxEvent.lookback : RxEvent → Option Byte
  | .byte b => some b
  | .noData => none

/-- `MemRead(RX, 1)`: the event (R35). -/
def pullEvent (s : State) : RxEvent :=
  match s.rxq with
  | [] => .noData
  | b :: _ => .byte b

/-- `MemRead(RX, 1)`: what it leaves (R35). -/
def pullRest (s : State) : State := { s with rxq := s.rxq.drop 1 }

/-- `MemRead(RX, n)`: the bytes (R36). -/
def blockBytes (n : Nat) (s : State) : List Byte := s.rxq.take n

/-- `MemRead(RX, n)`: what it leaves (R36). -/
def blockRest (n : Nat) (s : State) : State := { s with rxq := s.rxq.drop n }

/-- `MemWrite(TX, 7, f)` (R37): every byte is accepted. -/
def memWrite (f : CommandFrame) (s : State) : State := { s with txlog := s.txlog ++ f.toList }

/-- `RxDrain()` (R38). -/
def rxDrain (s : State) : State := { s with rxq := [] }

/-- `Delay(T)` (R139): no effect on any state, whatever the interval. -/
def delay (_interval : Nat) (s : State) : State := s

/-! ## Sending (R81, R83) -/

/-- `build_command` (R81). -/
def buildCommand (command : Byte) (payload : Word16) : CommandFrame :=
  commandBytes command payload (commandChecksum command payload)

/-- `send(f)` (R83). -/
def send (f : CommandFrame) (s : State) : State := delay s.params.tCmdSettle (memWrite f s)

/-! ## Ending an operation -/

/-- A host operation ends with its response (R60). -/
def respond (r : Response) (s : State) : State := { s with response := some r }

/-- Error entry, `raise` (R117): CV <- 0, PHASE <- IDLE, the error response, and nothing else. There is no return operation
beside it: the block is idle at once and the host retries (R118). -/
def raise (cause : ErrorCause) (s : State) : State :=
  respond (.error cause) { s with reading := none, phase := .idle }

/-- Commit (R76): all fourteen registers and CV together, PHASE <- IDLE, the same values in the response. -/
def commit (r : Reading) (s : State) : State :=
  respond (.okReading r) { s with reading := some r, phase := .idle }

/-- A refused host operation word: the response and no other state (R97, R98, R106). -/
def illegalOp (s : State) : State := respond .illegalOp s

/-! ## The shapes of a sending operation (R59) -/

/-- Send one frame and answer OK (R85 to R88). -/
def sendAnswer (command : Byte) (payload : Word16) (s : State) : State :=
  respond .ok (send (buildCommand command payload) s)

/-- Send one frame, drain what is buffered after the settle delay, and answer OK (R84). -/
def sendDrainAnswer (command : Byte) (payload : Word16) (s : State) : State :=
  respond .ok (rxDrain (envMove (send (buildCommand command payload) s)))

/-! ## Reset of a live instance -/

/-- Reset (R27, R127, R128): an operation in progress is abandoned with no response, MODE takes INIT_MODE, RXQ stays. The
instance's parameters, the environment and the pending inputs are outside the block and stay (log 11). -/
def resetBlock (s : State) : State :=
  { State.resetWith s.params s.rxq s.arrivals with inputs := s.inputs }

/-! ## Numeric codes of a response (R107) -/

/-- The `kind` code, 2 bits (R107). -/
def kindCode : Response → BitVec 2
  | .ok => 0
  | .okFrame _ => 0
  | .okReading _ => 0
  | .present _ => 0
  | .absent => 0
  | .error cause =>
    match cause.kind with
    | .communicationError => 1
    | .dataIntegrityError => 2
  | .illegalOp => 3

/-- The `cause` code, 3 bits (R107). -/
def causeCode : Response → BitVec 3
  | .ok => 0
  | .okFrame _ => 0
  | .okReading _ => 0
  | .present _ => 0
  | .absent => 0
  | .error .noStart => 1
  | .error (.shortFrame _) => 2
  | .error (.checksumMismatch _ _) => 3
  | .error .zeroPayload => 4
  | .error (.sensorError _) => 5
  | .illegalOp => 0

end Sys2Proof.Machine
end

