-- ==== Sys2Proof/Machine/CommandEncoder.lean ====
section
/-!
DEFINITION. The Command Encoder: build_command and the five sending operations (R81 to R89).
-/

namespace Sys2Proof.Machine

/-- The end of every meaning of this hardware: a next state (R60, R118). -/
abbrev Result := Host.Outcome State Fault Refusal

/-- `build_command(cmd, payload)` (R81): the frame in the response, nothing read, written or transmitted. -/
def execBuildCommand (cmd : Byte) (payload : Word16) (s : State) : Result :=
  .next (respond (.okFrame (buildCommand cmd payload)) s)

/-- `set_passive()` (R84): send the frame, then drain what is buffered after the settle delay. -/
def execSetPassive (s : State) : Result :=
  .next (sendDrainAnswer Config.cmdMode Config.payloadPassive s)

/-- `set_active()` (R85): send the frame; MODE is not written (R89). -/
def execSetActive (s : State) : Result :=
  .next (sendAnswer Config.cmdMode Config.payloadActive s)

/-- `sleep()` (R86). -/
def execSleep (s : State) : Result :=
  .next (sendAnswer Config.cmdSleep Config.payloadSleep s)

/-- `wake()` (R87). -/
def execWake (s : State) : Result :=
  .next (sendAnswer Config.cmdSleep Config.payloadWake s)

/-- `request_read()` (R88): sent in either mode. -/
def execRequestRead (s : State) : Result :=
  .next (sendAnswer Config.cmdRead Config.payloadRead s)

end Sys2Proof.Machine
end

