-- ==== Sys2Proof/Machine/FrameReader.lean ====
section
/-!
DEFINITION. The Frame Reader: read_frame (R63 to R79), first as the algorithm of R63, then as the phase machine of R22.
-/

namespace Sys2Proof.Machine

/-! ## The phases of read_frame -/

/-- Entry (R64): the cached Reading is not touched. -/
def enterScan (s : State) : State := { s with phase := .scan, lb := none, iter := 0 }

/-- One scan iteration (R65 to R67, R70): the environment may move, one event is pulled and counted, and either it completes
the marker or it becomes the lookback, whatever it is. -/
def scanPull (s : State) : State :=
  let q := envMove s
  let e := pullEvent q
  let t := { pullRest q with iter := s.iter + 1 }
  if s.lb = some Config.marker0 ∧ e = .byte Config.marker1 then { t with phase := .payload }
  else
    let u := if s.lb = some Config.marker0 then delay s.params.tResync t else t
    { u with lb := e.lookback }

/-- The scan loop with `n` pulls left (R66): it ends at the first match or when none is left. -/
def scan : Nat → State → State
  | 0, s => s
  | n + 1, s =>
    match (scanPull s).phase with
    | .scan => scan n (scanPull s)
    | _ => scanPull s

/-- The checks and the decode on a full candidate frame, in the fixed order of R63 and R111 (R73 to R77). -/
def checkFrame (s : State) : State :=
  if ¬ checksumPasses s.frame then
    raise (.checksumMismatch (rxChecksum s.frame) (dataChecksum s.frame)) s
  else if payloadIsZero s.frame then raise .zeroPayload s
  else if (decodeReading s.frame).error_code ≠ 0 then
    raise (.sensorError (decodeReading s.frame).error_code) s
  else commit (decodeReading s.frame) s

/-- The active-mode settle delay (R70): all the use read_frame makes of MODE. -/
def activeSettle (s : State) : State :=
  match s.mode with
  | .active => delay s.params.tActiveSettle s
  | .passive => s

/-- The block pull of thirty bytes, which makes the candidate frame or is short (R71, R72). -/
def takeRemainder (s : State) : State :=
  let t := blockRest Config.remainderLen s
  if h : (blockBytes Config.remainderLen s).length = Config.remainderLen then
    { t with frame := assembleFrame (blockBytes Config.remainderLen s) h, phase := .check }
  else raise (.shortFrame (BitVec.ofNat 5 (blockBytes Config.remainderLen s).length)) t

/-- The payload read (R70 to R72). -/
def pullPayload (s : State) : State := takeRemainder (envMove (activeSettle s))

/-- `read_frame` (R63). -/
def readFrame (s : State) : State :=
  let t := scan s.params.maxScanIter (enterScan s)
  match t.phase with
  | .payload =>
    let u := pullPayload t
    match u.phase with
    | .check => checkFrame u
    | _ => u
  | _ => raise .noStart t

/-- `read_frame()` as a host operation. -/
def execReadFrame (s : State) : Result := .next (readFrame s)

/-! ## The phase machine -/

/-- One move of a read_frame in progress, by PHASE (R22): at most one access of RX a move. Between two moves the environment
may act. Not used by `exec`, which runs the operation whole (log 10). -/
def advance (s : State) : State :=
  match s.phase with
  | .idle => s
  | .scan => if s.iter < s.params.maxScanIter then scanPull s else raise .noStart s
  | .payload => pullPayload s
  | .check => checkFrame s

/-- `n` moves. -/
def advanceN : Nat → State → State
  | 0, s => s
  | n + 1, s => advanceN n (advance s)

end Sys2Proof.Machine
end

