-- ==== Sys2Proof/Machine/TopLevel.lean ====
section
/-!
DEFINITION. The top-level read and the accessors (R93 to R97).
-/

namespace Sys2Proof.Machine

/-- The first half of get_reading (R93, R59): in passive mode the read request is sent. -/
def requestIfPassive (s : State) : State :=
  match s.mode with
  | .passive => send (buildCommand Config.cmdRead Config.payloadRead) s
  | .active => s

/-- `get_reading()` (R93): the read request in passive mode, then read_frame, its response unchanged. -/
def execGetReading (s : State) : Result := .next (readFrame (requestIfPassive s))

/-- `get_field(idx)` (R95 to R97): the register's value, Absent when CV = 0, ILLEGAL_OP when `idx` names no register. -/
def execGetField (idx : BitVec 4) (s : State) : Result :=
  if Config.nFields ≤ idx.toNat then .next (illegalOp s)
  else
    match s.reading with
    | none => .next (respond .absent s)
    | some r =>
      match readingField r idx with
      | some v => .next (respond (.present v) s)
      | none => .next (illegalOp s)

end Sys2Proof.Machine
end

