-- ==== Sys2Proof/Machine/Wire.lean ====
section
/-!
DEFINITION. The rows of the two wire formats (log 5). A command frame stands for the operation that makes it: each of the five
frames the block transmits for the sending operation its row's rule gives (R47, R84 to R88), any other for build_command,
which transmits nothing (R46, R81). So TXLOG is written by the sending operations and get_reading alone (R24). A data frame on
RX is thirty-two appends of the environment (R33), which the block does not look at until a read pulls them.
-/

namespace Sys2Proof.Machine

/-- frame.command (R46): the frame build_command makes of `command` and `payload` (R81), which is answered and not
transmitted; with another checksum the bytes are no command frame, name no operation, and get ILLEGAL_OP (R106, log 5). -/
def execFrameCommand (command : Byte) (payload checksum : Word16) (s : State) : Result :=
  if checksum = commandChecksum command payload then .next (respond (.okFrame (buildCommand command payload)) s)
  else .next (illegalOp s)

/-- frame.set_passive (R47, R84): 42 4D E1 00 00 01 70, then the drain. -/
def execFrameSetPassive (s : State) : Result := .next (sendDrainAnswer Config.cmdMode Config.payloadPassive s)

/-- frame.set_active (R47, R85): 42 4D E1 00 01 01 71. -/
def execFrameSetActive (s : State) : Result := .next (sendAnswer Config.cmdMode Config.payloadActive s)

/-- frame.request_read (R47, R88): 42 4D E2 00 00 01 71. -/
def execFrameRequestRead (s : State) : Result := .next (sendAnswer Config.cmdRead Config.payloadRead s)

/-- frame.sleep (R47, R86): 42 4D E4 00 00 01 73. -/
def execFrameSleep (s : State) : Result := .next (sendAnswer Config.cmdSleep Config.payloadSleep s)

/-- frame.wake (R47, R87): 42 4D E4 00 01 01 74. -/
def execFrameWake (s : State) : Result := .next (sendAnswer Config.cmdSleep Config.payloadWake s)

/-- frame.data (R33, R48): the thirty-two bytes are appended to RXQ, whatever the fields hold (R32, R56). -/
def execFrameData (length : Word16) (fields : Reading) (checksumHi checksumLo : Byte) (s : State) : Result :=
  .next (receive (dataBytes length fields checksumHi checksumLo).toList s)

/-! ## Items that are no instruction -/

/-- What happens on an item the decoder rejects: a host operation word, and seven bytes without the start marker, name no
operation and get ILLEGAL_OP (R98, R106, log 6); thirty-two bytes on RX without the marker are noise and are received all
the same (R32). -/
def rejected (t : Transfer) (s : State) : Result :=
  match t with
  | .hostWord _ => .next (illegalOp s)
  | .commandFrame _ => .next (illegalOp s)
  | .dataFrame f => .next (receive f.toList s)

end Sys2Proof.Machine
end

