-- ==== Sys2Proof/Machine/Dispatch.lean ====
section
/-!
DEFINITION. One arm per instruction.
-/

namespace Sys2Proof.Machine

def exec (i : Instr) (s : State) : Host.Outcome State Fault Refusal :=
  match i with
  | .buildCommand cmd payload => Sys2Proof.Machine.execBuildCommand cmd payload s
  | .setPassive => Sys2Proof.Machine.execSetPassive s
  | .setActive => Sys2Proof.Machine.execSetActive s
  | .sleep => Sys2Proof.Machine.execSleep s
  | .wake => Sys2Proof.Machine.execWake s
  | .requestRead => Sys2Proof.Machine.execRequestRead s
  | .readFrame => Sys2Proof.Machine.execReadFrame s
  | .getReading => Sys2Proof.Machine.execGetReading s
  | .getField idx => Sys2Proof.Machine.execGetField idx s
  | .frameCommand command payload checksum => Sys2Proof.Machine.execFrameCommand command payload checksum s
  | .frameSetPassive => Sys2Proof.Machine.execFrameSetPassive s
  | .frameSetActive => Sys2Proof.Machine.execFrameSetActive s
  | .frameRequestRead => Sys2Proof.Machine.execFrameRequestRead s
  | .frameSleep => Sys2Proof.Machine.execFrameSleep s
  | .frameWake => Sys2Proof.Machine.execFrameWake s
  | .frameData length fields checksumHi checksumLo => Sys2Proof.Machine.execFrameData length fields checksumHi checksumLo s

end Sys2Proof.Machine
end

