-- ==== Sys2Proof/Machine/Step.lean ====
section
/-!
DEFINITION. One step: the machine takes the oldest item the outside world has given it (log 1). Host operations run one at a
time, in the order they were issued (R42).
-/

namespace Sys2Proof.Machine

/-- One step. With nothing pending the block is idle and only the environment may move. -/
def step (s : State) : Host.Outcome State Fault Refusal :=
  match s.inputs with
  | [] => .next (envMove s)
  | .reset :: rest => .next (resetBlock { s with inputs := rest })
  | .rxByte b :: rest => .next (receive [b] { s with inputs := rest })
  | .transfer t :: rest =>
    match decode t with
    | .ok i => exec i { s with inputs := rest }
    | .error _ => rejected t { s with inputs := rest }

/-- `s` with the opcode-table word `w` as the very next item the machine takes. -/
def State.withFetchWord (s : State) (nbits w : Nat) : State :=
  match tableTransfer nbits w with
  | none => s
  | some t => { s with inputs := .transfer t :: s.inputs }

/-- The host issues operations, in order, each after the earlier ones (R3, R42, R58). -/
def State.issue (s : State) (ops : List Instr) : State :=
  { s with inputs := s.inputs ++ ops.map fun i => Input.transfer (encode i) }

end Sys2Proof.Machine
end

