-- ==== Sys2Proof/Safety.lean ====
section
/-!
DEFINITION. The terms the claims use: the event sequence a read_frame sees (R33, R69), the frames that pass (R16), and the
invariant of the machine.
-/

namespace Sys2Proof.Machine

/-! ## The receive stream as a sequence of events (R33) -/

/-- The answers that `n` single-byte pulls get, in order. -/
def rxEvents : Nat → State → List RxEvent
  | 0, _ => []
  | n + 1, s => pullEvent (envMove s) :: rxEvents n (pullRest (envMove s))

/-- What `n` single-byte pulls leave of RXQ and of the environment's schedule. -/
def afterPulls : Nat → State → State
  | 0, s => s
  | n + 1, s => afterPulls n (pullRest (envMove s))

/-- The pulls number `j - 1` and `j`, counted from 1, returned the marker (R69 (b)). -/
abbrev MarkerAt (es : List RxEvent) (j : Nat) : Prop :=
  2 ≤ j ∧ es[j - 2]? = some (.byte 0x42) ∧ es[j - 1]? = some (.byte 0x4D)

/-- `j` is the least number at which the marker is complete (R69 (b)). -/
abbrev FirstMarker (es : List RxEvent) (j : Nat) : Prop := MarkerAt es j ∧ ∀ k, k < j → ¬ MarkerAt es k

/-- No pull of the sequence completes the marker. -/
abbrev NoMarker (es : List RxEvent) : Prop := ∀ k, k ≤ es.length → ¬ MarkerAt es k

/-! ## Frames -/

/-- The frame opens with the start marker (R48). -/
abbrev HasMarker (f : DataFrame) : Prop := f[0] = 0x42 ∧ f[1] = 0x4D

/-- The byte sum of R73: frame offsets 0 to 29. -/
abbrev SumPasses (f : DataFrame) : Prop :=
  f[31] = BitVec.ofNat 8 ((f.toList.take 30).map BitVec.toNat).sum

/-- R74: every byte at frame offsets 2 to 27 is zero. -/
abbrev ZeroRegion (f : DataFrame) : Prop := ∀ i : Fin 32, 2 ≤ i.val → i.val ≤ 27 → f[i] = 0

/-- A frame that yields a Reading (R16): marker, checksum, not all zero, no sensor error. -/
abbrev GoodFrame (f : DataFrame) : Prop := HasMarker f ∧ SumPasses f ∧ ¬ ZeroRegion f ∧ f[29] = 0

/-- A read_frame from `s` finds the marker at pull `j`, and the block pull then takes the last thirty bytes of `f` and leaves
`rest`. -/
structure Candidate (s : State) (j : Nat) (f : DataFrame) (rest : List Byte) : Prop where
  /-- The scan finds the marker at its pull number `j`, within the bound (R66). -/
  found : FirstMarker (rxEvents s.params.maxScanIter s) j
  /-- The first two bytes of the candidate are the marker (R72). -/
  marker : HasMarker f
  /-- The remainder is at the head of RXQ when the block pull is made (R71). -/
  remainder : (envMove (afterPulls j s)).rxq = f.toList.drop 2 ++ rest

/-- What a read_frame that pulled a whole candidate frame has written, outcome apart (R72, R79). -/
def afterCandidate (s : State) (j : Nat) (f : DataFrame) (rest : List Byte) : State :=
  { s with
    lb := some 0x42, iter := j, frame := f, phase := .idle, rxq := rest
    arrivals := (envMove (afterPulls j s)).arrivals }

/-! ## Responses -/

/-- Which responses each of the nine host operations may give (R60). -/
def mayAnswer : Instr → Response → Bool
  | .buildCommand _ _, .okFrame _ => true
  | .setPassive, .ok => true
  | .setActive, .ok => true
  | .sleep, .ok => true
  | .wake, .ok => true
  | .requestRead, .ok => true
  | .readFrame, .okReading _ => true
  | .readFrame, .error _ => true
  | .getReading, .okReading _ => true
  | .getReading, .error _ => true
  | .getField _, .present _ => true
  | .getField _, .absent => true
  | .getField _, .illegalOp => true
  | _, _ => false

/-! ## The invariant -/

/-- The five frames the block itself transmits (R46, R47). -/
def transmittedFrames : List CommandFrame :=
  [#v[0x42, 0x4D, 0xE1, 0x00, 0x00, 0x01, 0x70], #v[0x42, 0x4D, 0xE1, 0x00, 0x01, 0x01, 0x71],
   #v[0x42, 0x4D, 0xE2, 0x00, 0x00, 0x01, 0x71], #v[0x42, 0x4D, 0xE4, 0x00, 0x00, 0x01, 0x73],
   #v[0x42, 0x4D, 0xE4, 0x00, 0x01, 0x01, 0x74]]

/-- TXLOG is a sequence of whole frames, each one of the five (R37, R46). -/
def TxFramed (log : List Byte) : Prop :=
  ∃ fs : List CommandFrame, (∀ f ∈ fs, f ∈ transmittedFrames) ∧ log = (fs.map Vector.toList).flatten

/-- The instructions that write TXLOG: the sending operations, by word or by frame, and get_reading in passive mode (R24). -/
abbrev Transmits (i : Instr) (m : Mode) : Prop :=
  i ∈ [Instr.setPassive, .setActive, .sleep, .wake, .requestRead, .frameSetPassive, .frameSetActive, .frameSleep, .frameWake,
    .frameRequestRead] ∨ (i = .getReading ∧ m = .passive)

/-- What the response port says agrees with the cached Reading (R76, R78, R95, R96). -/
def ResponseAgrees (reading : Option Reading) : Option Response → Prop
  | some (.okReading r) => reading = some r
  | some (.present v) => ∃ r idx, reading = some r ∧ readingField r idx = some v
  | some .absent => reading = none
  | some (.error _) => reading = none
  | some .ok => True
  | some (.okFrame _) => True
  | some .illegalOp => True
  | none => True

/-- The invariant of the machine between two steps. -/
structure Inv (s : State) : Prop where
  /-- No read is in progress (R22, R42). -/
  phase_idle : s.phase = .idle
  /-- MODE is INIT_MODE (R17). -/
  mode_init : s.mode = s.params.initMode
  /-- ITER is within the bound (R20). -/
  iter_bound : s.iter ≤ s.params.maxScanIter
  /-- A present Reading is the decode of the frame last checked, and that frame passed (R16). -/
  reading_good : ∀ r, s.reading = some r → GoodFrame s.frame ∧ r = decodeReading s.frame
  /-- TXLOG holds whole frames of the five (R37, R46). -/
  tx_framed : TxFramed s.txlog
  /-- The response agrees with the cache (R76, R78). -/
  response_agrees : ResponseAgrees s.reading s.response

end Sys2Proof.Machine
end

