-- ==== Sys2Proof/Certificates/Slice0/Obligations.lean ====
section
/-!
DEFINITION. The statements for the provers. Bytes and sums are written out as the rules give them.
-/

open Sys2Proof Sys2Proof.Machine

/-! ## Encoding -/

/-- Decoding the encoding of a well-formed instruction gives it back, every operand at every value (R46, R48, R51). -/
def Obligations.DecodeOfEncodeIsTheInstruction : Prop :=
  ∀ i : Instr, i.wellFormed = true → decode (encode i) = .ok i

/-- A frame that decodes has one meaning: encoding that gives the frame back, byte for byte (R46, R48). -/
def Obligations.DecodedFrameEncodesBack : Prop :=
  (∀ (f : CommandFrame) (i : Instr), decode (.commandFrame f) = .ok i → encode i = .commandFrame f) ∧
  (∀ (f : DataFrame) (i : Instr), decode (.dataFrame f) = .ok i → encode i = .dataFrame f)

/-- R55 with the map of R52: the fields an operation does not use are ignored. -/
def Obligations.HostWordUnusedFieldsIgnored : Prop :=
  ∀ (idx : BitVec 4) (cmd : BitVec 8) (payload : BitVec 16),
    decode (.hostWord (0x1#4 ++ idx ++ cmd ++ payload)) = .ok (.buildCommand cmd payload) ∧
    decode (.hostWord (0x2#4 ++ idx ++ cmd ++ payload)) = .ok .setPassive ∧
    decode (.hostWord (0x3#4 ++ idx ++ cmd ++ payload)) = .ok .setActive ∧
    decode (.hostWord (0x4#4 ++ idx ++ cmd ++ payload)) = .ok .sleep ∧
    decode (.hostWord (0x5#4 ++ idx ++ cmd ++ payload)) = .ok .wake ∧
    decode (.hostWord (0x6#4 ++ idx ++ cmd ++ payload)) = .ok .requestRead ∧
    decode (.hostWord (0x7#4 ++ idx ++ cmd ++ payload)) = .ok .readFrame ∧
    decode (.hostWord (0x8#4 ++ idx ++ cmd ++ payload)) = .ok .getReading ∧
    decode (.hostWord (0x9#4 ++ idx ++ cmd ++ payload)) = .ok (.getField idx)

/-- R53, R98: a word with operation code 0x0 or 0xA to 0xF is answered ILLEGAL_OP and changes nothing else. -/
def Obligations.ReservedOperationAnswersIllegalOp : Prop :=
  ∀ (s : State) (w : BitVec 32) (rest : List Input), s.inputs = .transfer (.hostWord w) :: rest →
    (w.toNat / 2 ^ 28 = 0 ∨ 10 ≤ w.toNat / 2 ^ 28) →
    step s = .next { s with inputs := rest, response := some .illegalOp }

/-- Words written out from the encodings of the spec stand for the instructions the spec gives them (R47, R48, R52). -/
def Obligations.SpecWordsDecodeAsTheTableSays : Prop :=
  decode (.hostWord 0x10E10000) = .ok (.buildCommand 0xE1 0x0000) ∧
  decode (.hostWord 0x20000000) = .ok .setPassive ∧
  decode (.hostWord 0x80000000) = .ok .getReading ∧
  decode (.hostWord 0x94000000) = .ok (.getField 4) ∧
  decode (.commandFrame #v[0x42, 0x4D, 0xE4, 0x00, 0x01, 0x01, 0x74]) = .ok .frameWake ∧
  decode (.commandFrame #v[0x42, 0x4D, 0xE1, 0xAB, 0xCD, 0x02, 0xE8]) = .ok (.frameCommand 0xE1 0xABCD 0x02E8) ∧
  decode (.dataFrame #v[0x42, 0x4D, 0x00, 0x1C, 0x12, 0x34, 0xFF, 0xFF, 0x00, 0x00, 0x80, 0x00, 0x00, 0xFF, 0xFF, 0x00,
    0x00, 0x01, 0x00, 0x02, 0x00, 0x03, 0x00, 0x04, 0x00, 0x05, 0xAB, 0xCD, 0x80, 0x00, 0x07, 0x74]) =
    .ok (.frameData 0x001C
      ⟨0x1234, 0xFFFF, 0x0000, 0x8000, 0x00FF, 0xFF00, 1, 2, 3, 4, 5, 0xABCD, 0x80, 0x00⟩ 0x07 0x74)

/-! ## The step -/

/-- A step whose next item decodes is `exec` of the instruction, the item taken. -/
def Obligations.StepRunsTheDecodedInstruction : Prop :=
  ∀ (s : State) (t : Transfer) (i : Instr) (rest : List Input), s.inputs = .transfer t :: rest →
    decode t = .ok i → step s = exec i { s with inputs := rest }

/-- The other steps, the model's choices of logs 1, 2 and 6: with nothing pending only the environment's next bytes arrive;
a received byte is appended (R33); thirty-two bytes on RX that are no frame are received as noise (R32); seven bytes without
the start marker name no operation and get ILLEGAL_OP. -/
def Obligations.StepTakesTheOtherInputs : Prop :=
  (∀ s : State, s.inputs = [] →
    step s = .next { s with rxq := s.rxq ++ s.arrivals.head?.getD [], arrivals := s.arrivals.tail }) ∧
  (∀ (s : State) (b : Byte) (rest : List Input), s.inputs = .rxByte b :: rest →
    step s = .next { s with inputs := rest, rxq := s.rxq ++ [b] }) ∧
  (∀ (s : State) (f : DataFrame) (rest : List Input), s.inputs = .transfer (.dataFrame f) :: rest → ¬ HasMarker f →
    step s = .next { s with inputs := rest, rxq := s.rxq ++ f.toList }) ∧
  (∀ (s : State) (f : CommandFrame) (rest : List Input), s.inputs = .transfer (.commandFrame f) :: rest →
    ¬ (f[0] = 0x42 ∧ f[1] = 0x4D) → step s = .next { s with inputs := rest, response := some .illegalOp })

/-! ## Reset -/

/-- R127, R129: reset of a live instance, at any time, gives the values of R27 and leaves RXQ; F, which R27 leaves
unspecified, is some frame. -/
def Obligations.ResetOfALiveInstance : Prop :=
  ∀ (s : State) (rest : List Input), s.inputs = .reset :: rest → ∃ f : DataFrame,
    step s = .next { s with
      inputs := rest, reading := none, mode := s.params.initMode, lb := none, iter := 0, frame := f,
      phase := .idle, txlog := [], response := none }

/-- R27: the state after reset. -/
def Obligations.ResetStateHoldsTheResetValues : Prop :=
  (State.reset.reading = none ∧ State.reset.mode = State.reset.params.initMode ∧ State.reset.lb = none ∧
    State.reset.iter = 0 ∧ State.reset.phase = .idle ∧ State.reset.txlog = []) ∧
  (∀ (p : Params) (q : List Byte) (a : List (List Byte)),
    (State.resetWith p q a).reading = none ∧ (State.resetWith p q a).mode = p.initMode ∧
    (State.resetWith p q a).lb = none ∧ (State.resetWith p q a).iter = 0 ∧
    (State.resetWith p q a).phase = .idle ∧ (State.resetWith p q a).txlog = [] ∧ (State.resetWith p q a).rxq = q)

/-- The invariant holds after reset. -/
def Obligations.ResetStateMeetsTheInvariant : Prop :=
  Inv State.reset ∧ ∀ (p : Params) (q : List Byte) (a : List (List Byte)), Inv (State.resetWith p q a)

/-- Every step keeps the invariant: no read in progress between steps, MODE is INIT_MODE (R17), ITER within the bound (R20),
a present Reading is the decode of a frame that passed every check (R16), TXLOG holds whole frames of the five the block
transmits (R37, R46), and the response agrees with the cache (R76, R78, R96). -/
def Obligations.EveryStepKeepsTheInvariant : Prop :=
  ∀ s t : State, Inv s → step s = .next t → Inv t

/-! ## The Command Encoder -/

/-- R81: build_command answers the frame and touches nothing. -/
def Obligations.BuildCommandAnswersTheFrame : Prop :=
  ∀ (cmd : Byte) (payload : Word16) (s : State),
    let hi : Byte := payload.extractLsb' 8 8
    let lo : Byte := payload.extractLsb' 0 8
    let chk : Word16 := BitVec.ofNat 16 (0x42 + 0x4D + cmd.toNat + hi.toNat + lo.toNat)
    exec (.buildCommand cmd payload) s = .next { s with
      response := some (.okFrame #v[0x42, 0x4D, cmd, hi, lo, chk.extractLsb' 8 8, chk.extractLsb' 0 8]) }

/-- R82: the sum never wraps, the checksum's high byte is 0 to 3, both bounds are met, and the frame determines the
command and the payload. -/
def Obligations.CommandChecksumNeverWraps : Prop :=
  (∀ (cmd : Byte) (payload : Word16),
    (commandChecksum cmd payload).toNat =
      0x42 + 0x4D + cmd.toNat + (payload.extractLsb' 8 8).toNat + (payload.extractLsb' 0 8).toNat ∧
    0x8F ≤ (commandChecksum cmd payload).toNat ∧ (commandChecksum cmd payload).toNat ≤ 0x038C ∧
    (buildCommand cmd payload)[5].toNat ≤ 3) ∧
  commandChecksum 0x00 0x0000 = 0x008F ∧ commandChecksum 0xFF 0xFFFF = 0x038C ∧
  (∀ (cmd cmd' : Byte) (payload payload' : Word16),
    buildCommand cmd payload = buildCommand cmd' payload' → cmd = cmd' ∧ payload = payload')

/-- R84: set_passive sends 42 4D E1 00 00 01 70, then drains what is buffered. The environment has its move before the
drain (log 2). -/
def Obligations.SetPassiveSendsThenDrains : Prop :=
  ∀ s : State, exec .setPassive s = .next { s with
    txlog := s.txlog ++ [0x42, 0x4D, 0xE1, 0x00, 0x00, 0x01, 0x70]
    rxq := [], arrivals := s.arrivals.tail, response := some .ok }

/-- R85 to R88: each of the other four sends its frame and changes nothing else. -/
def Obligations.SendingOperationsSendTheirFrames : Prop :=
  ∀ s : State,
    exec .setActive s = .next { s with
      txlog := s.txlog ++ [0x42, 0x4D, 0xE1, 0x00, 0x01, 0x01, 0x71], response := some .ok } ∧
    exec .sleep s = .next { s with
      txlog := s.txlog ++ [0x42, 0x4D, 0xE4, 0x00, 0x00, 0x01, 0x73], response := some .ok } ∧
    exec .wake s = .next { s with
      txlog := s.txlog ++ [0x42, 0x4D, 0xE4, 0x00, 0x01, 0x01, 0x74], response := some .ok } ∧
    exec .requestRead s = .next { s with
      txlog := s.txlog ++ [0x42, 0x4D, 0xE2, 0x00, 0x00, 0x01, 0x71], response := some .ok }

/-- R89: none of the six encoder operations reads or writes the Reading or MODE, and none can fail; after set_active on a
passive instance get_reading still sends a read request first. -/
def Obligations.EncoderIgnoresReadingAndMode : Prop :=
  (∀ (i : Instr), (∃ c p, i = .buildCommand c p) ∨ i ∈ [Instr.setPassive, .setActive, .sleep, .wake, .requestRead] →
    ∀ (s : State) (r : Option Reading) (m : Mode), ∃ t : State,
      exec i s = .next t ∧ t.reading = s.reading ∧ t.mode = s.mode ∧
      (∀ c, t.response ≠ some (.error c)) ∧
      exec i { s with reading := r, mode := m } = .next { t with reading := r, mode := m }) ∧
  (∀ s t u : State, s.mode = .passive → exec .setActive s = .next t → exec .getReading t = .next u →
    u.txlog = t.txlog ++ [0x42, 0x4D, 0xE2, 0x00, 0x00, 0x01, 0x71])

/-- R59: each sending operation transmits the frame that build_command answers, set_passive with the drain after it;
get_reading is request_read and read_frame, or read_frame. The environment has its move before the drain (log 2). -/
def Obligations.CompositeOperationsExpand : Prop :=
  (∀ (s t : State) (f : CommandFrame), exec (.buildCommand 0xE1 0x0000) s = .next t → t.response = some (.okFrame f) →
    exec .setPassive s = .next { s with
      txlog := s.txlog ++ f.toList, rxq := [], arrivals := s.arrivals.tail, response := some .ok }) ∧
  (∀ (s t : State) (f : CommandFrame) (c : Byte) (p : Word16) (i : Instr),
    (i, c, p) ∈ [(Instr.setActive, 0xE1, 0x0001), (.sleep, 0xE4, 0x0000), (.wake, 0xE4, 0x0001), (.requestRead, 0xE2, 0x0000)] →
    exec (.buildCommand c p) s = .next t → t.response = some (.okFrame f) →
    exec i s = .next { s with txlog := s.txlog ++ f.toList, response := some .ok }) ∧
  (∀ s t : State, s.mode = .passive → exec .requestRead s = .next t → exec .getReading s = exec .readFrame t) ∧
  (∀ s : State, s.mode = .active → exec .getReading s = exec .readFrame s)

/-! ## The Frame Reader -/

/-- R65, R66, R67: one scan iteration, by the event it pulls. -/
def Obligations.ScanIterationFollowsTheMarkerRule : Prop :=
  (∀ (s : State) (b : Byte) (q : List Byte), (envMove s).rxq = b :: q → s.lb = some 0x42 → b = 0x4D →
    scanPull s = { s with
      phase := .payload, iter := s.iter + 1, rxq := q, arrivals := (envMove s).arrivals }) ∧
  (∀ (s : State) (b : Byte) (q : List Byte), (envMove s).rxq = b :: q → (s.lb ≠ some 0x42 ∨ b ≠ 0x4D) →
    scanPull s = { s with
      lb := some b, iter := s.iter + 1, rxq := q, arrivals := (envMove s).arrivals }) ∧
  (∀ s : State, (envMove s).rxq = [] →
    scanPull s = { s with
      lb := none, iter := s.iter + 1, rxq := [], arrivals := (envMove s).arrivals })

/-- R68: when none of the MAX_SCAN_ITER pulls completes the marker, and always when MAX_SCAN_ITER is 0 or 1, read_frame makes
exactly these pulls and ends with NO_START; the Reading is absent. -/
def Obligations.ReadFrameWithoutMarkerEndsInNoStart : Prop :=
  ∀ s : State, NoMarker (rxEvents s.params.maxScanIter s) ∨ s.params.maxScanIter < 2 →
    exec .readFrame s = .next { s with
      reading := none, phase := .idle, response := some (.error .noStart)
      iter := s.params.maxScanIter
      lb := (rxEvents s.params.maxScanIter s).getLast?.bind RxEvent.lookback
      rxq := (afterPulls s.params.maxScanIter s).rxq
      arrivals := (afterPulls s.params.maxScanIter s).arrivals }

/-- R71: with the marker found at pull `j` and fewer than thirty bytes to pull, read_frame ends with SHORT_FRAME and their
count, and they are lost. -/
def Obligations.ReadFrameShortRemainderEndsInShortFrame : Prop :=
  ∀ (s : State) (j : Nat), FirstMarker (rxEvents s.params.maxScanIter s) j →
    (envMove (afterPulls j s)).rxq.length < 30 →
    exec .readFrame s = .next { s with
      reading := none, phase := .idle
      response := some (.error (.shortFrame (BitVec.ofNat 5 (envMove (afterPulls j s)).rxq.length)))
      iter := j, lb := some 0x42, rxq := [], arrivals := (envMove (afterPulls j s)).arrivals }

/-- R73, R74, R77, R76 in the order of R111: a whole candidate frame is checked for its sum, for a zero region, for a sensor
error, and then committed; the first failing check names the cause. -/
def Obligations.ReadFrameJudgesACandidateInOrder : Prop :=
  ∀ (s : State) (j : Nat) (f : DataFrame) (rest : List Byte), Candidate s j f rest →
    let calc8 : Byte := BitVec.ofNat 8 ((f.toList.take 30).map BitVec.toNat).sum
    let rxChk : Word16 := BitVec.ofNat 16 (f[30].toNat * 256 + f[31].toNat)
    exec .readFrame s = .next (
      if f[31] ≠ calc8 then
        { afterCandidate s j f rest with reading := none, response := some (.error (.checksumMismatch rxChk calc8)) }
      else if ZeroRegion f then
        { afterCandidate s j f rest with reading := none, response := some (.error .zeroPayload) }
      else if f[29] ≠ 0 then
        { afterCandidate s j f rest with reading := none, response := some (.error (.sensorError f[29])) }
      else
        { afterCandidate s j f rest with
          reading := some (decodeReading f), response := some (.okReading (decodeReading f)) })

/-- R69, R80: noise before the marker is discarded one byte an iteration, and a good frame after it is found and decoded
when the bound allows, whatever the environment appends meanwhile. -/
def Obligations.ReadFrameFindsTheFrameAfterNoise : Prop :=
  ∀ (s : State) (noise : List Byte) (f : DataFrame) (rest : List Byte),
    s.rxq = noise ++ f.toList ++ rest → GoodFrame f →
    (∀ k : Nat, ¬ (noise[k]? = some 0x42 ∧ noise[k + 1]? = some 0x4D)) →
    noise.length + 2 ≤ s.params.maxScanIter →
    exec .readFrame s = .next { s with
      reading := some (decodeReading f), response := some (.okReading (decodeReading f)), phase := .idle
      lb := some 0x42, iter := noise.length + 2, frame := f
      rxq := rest ++ (s.arrivals.take (noise.length + 3)).flatten
      arrivals := s.arrivals.drop (noise.length + 3) }

/-- R67, R80: pulls that return no data cost iterations and nothing else; a good frame that arrives after `k` of them is
decoded when the bound allows. -/
def Obligations.ReadFrameSurvivesSilence : Prop :=
  ∀ (s : State) (k : Nat) (f : DataFrame) (rest : List Byte) (more : List (List Byte)),
    s.rxq = [] → s.arrivals = List.replicate k [] ++ (f.toList ++ rest) :: more → GoodFrame f →
    k + 2 ≤ s.params.maxScanIter →
    exec .readFrame s = .next { s with
      reading := some (decodeReading f), response := some (.okReading (decodeReading f)), phase := .idle
      lb := some 0x42, iter := k + 2, frame := f
      rxq := rest ++ (more.take 2).flatten, arrivals := more.drop 2 }

/-- R16, R76: read_frame answers with a Reading exactly when the events hold the marker within the bound and a good frame
follows, and the Reading is the decode of that frame. -/
def Obligations.ReadFrameSucceedsExactlyOnGoodFrames : Prop :=
  ∀ (s t : State) (r : Reading), exec .readFrame s = .next t →
    (t.response = some (.okReading r) ↔
      ∃ (j : Nat) (f : DataFrame) (rest : List Byte), Candidate s j f rest ∧ GoodFrame f ∧ r = decodeReading f)

/-- R64: nothing of an earlier operation is carried over: lookback, iteration count, phase, response and the cached Reading
have no effect on what read_frame does. -/
def Obligations.ReadFrameStartsAfresh : Prop :=
  ∀ (s : State) (l : Option Byte) (n : Nat) (p : Phase) (a : Option Response) (r : Option Reading),
    exec .readFrame { s with lb := l, iter := n, phase := p, response := a, reading := r } = exec .readFrame s

/-- R70: MODE selects a timing point only: read_frame does the same in both modes. -/
def Obligations.ReadFrameIsTheSameInBothModes : Prop :=
  ∀ (s t : State) (m : Mode), exec .readFrame s = .next t →
    exec .readFrame { s with mode := m } = .next { t with mode := m }

/-- R139: no instruction's effect depends on the three delays. -/
def Obligations.DelaysChangeNothing : Prop :=
  ∀ (i : Instr) (s : State) (a b c : Nat), ∃ t : State, exec i s = .next t ∧
    exec i { s with params := { s.params with tCmdSettle := a, tActiveSettle := b, tResync := c } } =
      .next { t with params := { t.params with tCmdSettle := a, tActiveSettle := b, tResync := c } }

/-- R49: the decoded registers, by number, from their frame offsets. -/
def Obligations.FieldsAreBigEndianAtTheirOffsets : Prop :=
  ∀ f : DataFrame,
    (∀ (i : Nat) (h : i < 12), readingField (decodeReading f) (BitVec.ofNat 4 i) =
      some (.word (BitVec.ofNat 16 (f[4 + 2 * i].toNat * 256 + f[5 + 2 * i].toNat)))) ∧
    readingField (decodeReading f) 12 = some (.byte f[28]) ∧ readingField (decodeReading f) 13 = some (.byte f[29])

/-- R50: the received field is F[30] * 256 + F[31], and any value of F[30] gives the same verdict and the same Reading. -/
def Obligations.HighChecksumByteIsIgnored : Prop :=
  ∀ (f : DataFrame) (b : Byte),
    (rxChecksum f).toNat = f[30].toNat * 256 + f[31].toNat ∧
    (checksumPasses (f.set 30 b) ↔ checksumPasses f) ∧
    (payloadIsZero (f.set 30 b) ↔ payloadIsZero f) ∧ decodeReading (f.set 30 b) = decodeReading f

/-- R143: a change of the byte sum by a multiple of 256, a change of the high checksum byte, and any reordering of the bytes
at offsets 0 to 29 pass undetected. -/
def Obligations.WeakCheckMissesTheseErrors : Prop :=
  (∀ f g : DataFrame, f[31] = g[31] →
    ((f.toList.take 30).map BitVec.toNat).sum % 256 = ((g.toList.take 30).map BitVec.toNat).sum % 256 →
    (checksumPasses f ↔ checksumPasses g)) ∧
  (∀ (f : DataFrame) (b : Byte), checksumPasses (f.set 30 b) ↔ checksumPasses f) ∧
  (∀ f g : DataFrame, f[31] = g[31] → (f.toList.take 30).Perm (g.toList.take 30) →
    (checksumPasses f ↔ checksumPasses g))

/-- R136: the oldest complete frame is decoded first, and the next read decodes the next. -/
def Obligations.OldestFrameIsReadFirst : Prop :=
  ∀ (s : State) (f g : DataFrame) (rest : List Byte), s.rxq = f.toList ++ (g.toList ++ rest) → s.arrivals = [] →
    GoodFrame f → GoodFrame g → 2 ≤ s.params.maxScanIter →
    ∃ t u : State, exec .readFrame s = .next t ∧ t.response = some (.okReading (decodeReading f)) ∧
      t.rxq = g.toList ++ rest ∧ exec .readFrame t = .next u ∧
      u.response = some (.okReading (decodeReading g)) ∧ u.reading = some (decodeReading g) ∧ u.rxq = rest

/-- R22: the transitions of PHASE, one move of the phase machine at a time. -/
def Obligations.PhaseFollowsItsTransitions : Prop :=
  (∀ s : State, (enterScan s).phase = .scan) ∧
  (∀ s : State, (s.phase, (advance s).phase) ∈
    [(Phase.idle, Phase.idle), (.scan, .scan), (.scan, .payload), (.scan, .idle), (.payload, .check), (.payload, .idle),
     (.check, .idle)])

/-- R20, R66: ITER is 0 on entry and never exceeds MAX_SCAN_ITER in any move of a read_frame. -/
def Obligations.IterationCountStaysWithinTheBound : Prop :=
  ∀ (s : State) (n : Nat), (enterScan s).iter = 0 ∧
    (advanceN n (enterScan s)).iter ≤ (advanceN n (enterScan s)).params.maxScanIter

/-- R63, R141: the operation run whole is the phase machine run from entry for at most MAX_SCAN_ITER + 2 moves, after which it
is idle. -/
def Obligations.ReadFrameIsThePhaseMachine : Prop :=
  ∀ (s : State) (n : Nat), s.params.maxScanIter + 2 ≤ n →
    exec .readFrame s = .next (advanceN n (enterScan s)) ∧ (advanceN n (enterScan s)).phase = .idle

/-- R117: error entry writes CV, PHASE and the response, and nothing else. -/
def Obligations.ErrorEntryWritesOnlyThese : Prop :=
  ∀ (c : ErrorCause) (s : State),
    raise c s = { s with reading := none, phase := .idle, response := some (.error c) }

/-- R78: every failing read leaves the Reading absent, whatever it was. -/
def Obligations.FailingReadLeavesTheReadingAbsent : Prop :=
  ∀ (i : Instr) (s t : State) (c : ErrorCause), i = .readFrame ∨ i = .getReading →
    exec i s = .next t → t.response = some (.error c) → t.reading = none

/-- R108: an error response comes from read_frame or get_reading. A received data frame leaves the response (log 5). -/
def Obligations.OnlyTheReadsRaise : Prop :=
  ∀ (i : Instr) (s t : State) (c : ErrorCause), i.format ≠ .data32 → exec i s = .next t →
    t.response = some (.error c) → i = .readFrame ∨ i = .getReading

/-- R107: the numeric codes of the responses. -/
def Obligations.ResponseCodesAreThoseOfTheTable : Prop :=
  (∀ f r v, [(kindCode .ok, causeCode .ok), (kindCode (.okFrame f), causeCode (.okFrame f)),
    (kindCode (.okReading r), causeCode (.okReading r)), (kindCode (.present v), causeCode (.present v)),
    (kindCode .absent, causeCode .absent)] = List.replicate 5 (0, 0)) ∧
  (kindCode (.error .noStart), causeCode (.error .noStart)) = (1, 1) ∧
  (∀ n, (kindCode (.error (.shortFrame n)), causeCode (.error (.shortFrame n))) = (2, 2)) ∧
  (∀ a b, (kindCode (.error (.checksumMismatch a b)), causeCode (.error (.checksumMismatch a b))) = (2, 3)) ∧
  (kindCode (.error .zeroPayload), causeCode (.error .zeroPayload)) = (2, 4) ∧
  (∀ c, (kindCode (.error (.sensorError c)), causeCode (.error (.sensorError c))) = (2, 5)) ∧
  (kindCode .illegalOp, causeCode .illegalOp) = (3, 0)

/-! ## Top level -/

/-- R93: get_reading is read_frame, after the read request in passive mode; the response passes through unchanged. -/
def Obligations.GetReadingRequestsThenReads : Prop :=
  (∀ s : State, s.mode = .passive → exec .getReading s =
    exec .readFrame { s with txlog := s.txlog ++ [0x42, 0x4D, 0xE2, 0x00, 0x00, 0x01, 0x71] }) ∧
  (∀ s : State, s.mode = .active → exec .getReading s = exec .readFrame s)

/-- R93, R76: get_reading on a good frame commits and answers it, in either mode. -/
def Obligations.GetReadingCommitsAGoodFrame : Prop :=
  ∀ (s : State) (j : Nat) (f : DataFrame) (rest : List Byte), Candidate s j f rest → GoodFrame f →
    exec .getReading s = .next { afterCandidate s j f rest with
      reading := some (decodeReading f), response := some (.okReading (decodeReading f))
      txlog := s.txlog ++ (if s.mode = .passive then [0x42, 0x4D, 0xE2, 0x00, 0x00, 0x01, 0x71] else []) }

/-- R94 (a), R113: in passive mode the request is in TXLOG whatever read_frame then does, and in active mode, as for
read_frame itself, TXLOG is unchanged. -/
def Obligations.ReadRequestIsSentEvenOnFailure : Prop :=
  (∀ s t : State, s.mode = .passive → exec .getReading s = .next t →
    t.txlog = s.txlog ++ [0x42, 0x4D, 0xE2, 0x00, 0x00, 0x01, 0x71]) ∧
  (∀ s t : State, s.mode = .active → exec .getReading s = .next t → t.txlog = s.txlog) ∧
  (∀ s t : State, exec .readFrame s = .next t → t.txlog = s.txlog)

/-- R95: get_field of each of the fourteen registers of a present Reading. -/
def Obligations.GetFieldAnswersTheRegister : Prop :=
  ∀ (s : State) (r : Reading), s.reading = some r →
    exec (.getField 0) s = .next { s with response := some (.present (.word r.pm1_0_cf1)) } ∧
    exec (.getField 1) s = .next { s with response := some (.present (.word r.pm2_5_cf1)) } ∧
    exec (.getField 2) s = .next { s with response := some (.present (.word r.pm10_cf1)) } ∧
    exec (.getField 3) s = .next { s with response := some (.present (.word r.pm1_0)) } ∧
    exec (.getField 4) s = .next { s with response := some (.present (.word r.pm2_5)) } ∧
    exec (.getField 5) s = .next { s with response := some (.present (.word r.pm10)) } ∧
    exec (.getField 6) s = .next { s with response := some (.present (.word r.count_gt_0_3)) } ∧
    exec (.getField 7) s = .next { s with response := some (.present (.word r.count_gt_0_5)) } ∧
    exec (.getField 8) s = .next { s with response := some (.present (.word r.count_gt_1_0)) } ∧
    exec (.getField 9) s = .next { s with response := some (.present (.word r.count_gt_2_5)) } ∧
    exec (.getField 10) s = .next { s with response := some (.present (.word r.count_gt_5_0)) } ∧
    exec (.getField 11) s = .next { s with response := some (.present (.word r.count_gt_10)) } ∧
    exec (.getField 12) s = .next { s with response := some (.present (.byte r.version)) } ∧
    exec (.getField 13) s = .next { s with response := some (.present (.byte r.error_code)) }

/-- R96: when CV = 0 every register answers Absent, with no number. -/
def Obligations.GetFieldOfAnAbsentReadingIsAbsent : Prop :=
  ∀ (s : State) (idx : BitVec 4), s.reading = none → idx.toNat < 14 →
    exec (.getField idx) s = .next { s with response := some .absent }

/-- R97: 14 and 15 name no register, whether or not a Reading is present. -/
def Obligations.GetFieldBeyondTheRegistersIsIllegal : Prop :=
  ∀ (s : State) (idx : BitVec 4), 14 ≤ idx.toNat →
    exec (.getField idx) s = .next { s with response := some .illegalOp }

/-- R16, R95: in every state that meets the invariant, get_field(error_code) answers Present(0) or Absent. -/
def Obligations.ErrorCodeFieldIsNeverNonZero : Prop :=
  ∀ s : State, Inv s → ∃ t : State, exec (.getField 13) s = .next t ∧
    (t.response = some (.present (.byte 0)) ∨ t.response = some .absent)

/-! ## Frames on the wires -/

/-- The model's rows for the five frames the block transmits (log 5): each is the sending operation of R84 to R88 that makes
the frame of R47. The environment has its move before the drain (log 2). -/
def Obligations.TransmittedFramesRunTheirOperations : Prop :=
  ∀ s : State,
    exec .frameSetPassive s = .next { s with
      txlog := s.txlog ++ [0x42, 0x4D, 0xE1, 0x00, 0x00, 0x01, 0x70]
      rxq := [], arrivals := s.arrivals.tail, response := some .ok } ∧
    exec .frameSetActive s = .next { s with
      txlog := s.txlog ++ [0x42, 0x4D, 0xE1, 0x00, 0x01, 0x01, 0x71], response := some .ok } ∧
    exec .frameRequestRead s = .next { s with
      txlog := s.txlog ++ [0x42, 0x4D, 0xE2, 0x00, 0x00, 0x01, 0x71], response := some .ok } ∧
    exec .frameSleep s = .next { s with
      txlog := s.txlog ++ [0x42, 0x4D, 0xE4, 0x00, 0x00, 0x01, 0x73], response := some .ok } ∧
    exec .frameWake s = .next { s with
      txlog := s.txlog ++ [0x42, 0x4D, 0xE4, 0x00, 0x01, 0x01, 0x74], response := some .ok }

/-- The model's row for every other command frame (log 5): with the checksum of R81 it is build_command's answer, the very
bytes of the item, and nothing is transmitted; with another it names no operation and gets ILLEGAL_OP. -/
def Obligations.CommandFramesAreBuiltNotSent : Prop :=
  ∀ (f : CommandFrame) (command : Byte) (payload checksum : Word16) (s : State),
    decode (.commandFrame f) = .ok (.frameCommand command payload checksum) →
    exec (.frameCommand command payload checksum) s = .next { s with
      response := some (
        if checksum.toNat =
            0x42 + 0x4D + command.toNat + (payload.extractLsb' 8 8).toNat + (payload.extractLsb' 0 8).toNat
        then .okFrame f else .illegalOp) }

/-- The model's row for a data frame (log 5): the environment's thirty-two appends (R33), and nothing else. -/
def Obligations.WireDataFrameIsReceived : Prop :=
  ∀ (f : DataFrame) (i : Instr) (s : State), decode (.dataFrame f) = .ok i →
    exec i s = .next { s with rxq := s.rxq ++ f.toList }

/-! ## Whole-machine rules -/

/-- R32, R42 (c): the block takes bytes off the head of what is buffered and of what the environment appends after it, in
order: none is lost without being taken, doubled, reordered or altered. -/
def Obligations.ReceiveStreamIsFirstInFirstOut : Prop :=
  ∀ (i : Instr) (s t : State), i.format ≠ .data32 → exec i s = .next t →
    ∃ taken : List Byte, s.rxq ++ s.arrivals.flatten = taken ++ (t.rxq ++ t.arrivals.flatten)

/-- R24, R46: TXLOG only grows; the five sending operations, by word or by frame (log 5), and get_reading in passive mode
append one of the five frames the block transmits, and nothing else writes it. -/
def Obligations.TransmitLogOnlyGrows : Prop :=
  ∀ (i : Instr) (s t : State), exec i s = .next t →
    (Transmits i s.mode → ∃ f ∈ transmittedFrames, t.txlog = s.txlog ++ f.toList) ∧
    (¬ Transmits i s.mode → t.txlog = s.txlog)

/-- R26: what every instruction leaves alone; only the two reads write the Reading and the state of a read. -/
def Obligations.InstructionsLeaveTheRestAlone : Prop :=
  ∀ (i : Instr) (s : State), ∃ t : State, exec i s = .next t ∧
    t.mode = s.mode ∧ t.params = s.params ∧ t.inputs = s.inputs ∧
    (i ≠ .readFrame → i ≠ .getReading →
      t.reading = s.reading ∧ t.lb = s.lb ∧ t.iter = s.iter ∧ t.frame = s.frame ∧ t.phase = s.phase) ∧
    (i.format ≠ .data32 → i ≠ .readFrame → i ≠ .getReading → i ≠ .setPassive → i ≠ .frameSetPassive →
      t.rxq = s.rxq ∧ t.arrivals = s.arrivals)

/-- R17: MODE is written by reset alone, and so are the parameters by nothing. -/
def Obligations.ModeIsFixedBetweenResets : Prop :=
  ∀ s t : State, step s = .next t →
    t.params = s.params ∧ ((∀ rest, s.inputs ≠ .reset :: rest) → t.mode = s.mode)

/-- R60: every host operation ends with one response, of its shape. -/
def Obligations.EveryHostOperationAnswers : Prop :=
  ∀ (i : Instr) (s : State), i.format = .hostOp →
    ∃ (t : State) (r : Response), exec i s = .next t ∧ t.response = some r ∧ mayAnswer i r = true

/-- R13: the block is all its state. Two machines with the same block, the same parameters and the same environment have the
same block and the same environment after any instruction, and the same answer where it gives one, whatever the response
port and the pending inputs hold (logs 1 to 4). -/
def Obligations.TheBlockIsTheCompleteState : Prop :=
  ∀ (i : Instr) (s s' : State), s.toBlock = s'.toBlock → s.params = s'.params → s.arrivals = s'.arrivals →
    ∃ t t' : State, exec i s = .next t ∧ exec i s' = .next t' ∧ t.toBlock = t'.toBlock ∧ t.arrivals = t'.arrivals ∧
      (i.format ≠ .data32 → t.response = t'.response)
end

