-- ==== Sys2Proof/Laws/State.lean ====
section
/-!
SUPPORT. One lemma per field per update, so that no later proof unfolds a record update.
-/

namespace Sys2Proof.Machine

@[simp] theorem delay_eq (t : Nat) (s : State) : delay t s = s := rfl

@[simp] theorem activeSettle_eq (s : State) : activeSettle s = s := by
  unfold activeSettle; split <;> rfl

@[simp] theorem illegalOp_eq (s : State) : illegalOp s = respond .illegalOp s := rfl

@[simp] theorem sendAnswer_def (command : Byte) (payload : Word16) (s : State) :
    sendAnswer command payload s = respond .ok (send (buildCommand command payload) s) := rfl

@[simp] theorem sendDrainAnswer_def (command : Byte) (payload : Word16) (s : State) :
    sendDrainAnswer command payload s = respond .ok (rxDrain (envMove (send (buildCommand command payload) s))) := rfl

/-! ## receive -/

@[simp] theorem receive_reading (bs : List Byte) (s : State) : (receive bs s).reading = s.reading := rfl
@[simp] theorem receive_mode (bs : List Byte) (s : State) : (receive bs s).mode = s.mode := rfl
@[simp] theorem receive_lb (bs : List Byte) (s : State) : (receive bs s).lb = s.lb := rfl
@[simp] theorem receive_iter (bs : List Byte) (s : State) : (receive bs s).iter = s.iter := rfl
@[simp] theorem receive_frame (bs : List Byte) (s : State) : (receive bs s).frame = s.frame := rfl
@[simp] theorem receive_phase (bs : List Byte) (s : State) : (receive bs s).phase = s.phase := rfl
@[simp] theorem receive_rxq (bs : List Byte) (s : State) : (receive bs s).rxq = s.rxq ++ bs := rfl
@[simp] theorem receive_txlog (bs : List Byte) (s : State) : (receive bs s).txlog = s.txlog := rfl
@[simp] theorem receive_params (bs : List Byte) (s : State) : (receive bs s).params = s.params := rfl
@[simp] theorem receive_response (bs : List Byte) (s : State) : (receive bs s).response = s.response := rfl
@[simp] theorem receive_arrivals (bs : List Byte) (s : State) : (receive bs s).arrivals = s.arrivals := rfl
@[simp] theorem receive_inputs (bs : List Byte) (s : State) : (receive bs s).inputs = s.inputs := rfl

/-! ## pullRest -/

@[simp] theorem pullRest_reading (s : State) : (pullRest s).reading = s.reading := rfl
@[simp] theorem pullRest_mode (s : State) : (pullRest s).mode = s.mode := rfl
@[simp] theorem pullRest_lb (s : State) : (pullRest s).lb = s.lb := rfl
@[simp] theorem pullRest_iter (s : State) : (pullRest s).iter = s.iter := rfl
@[simp] theorem pullRest_frame (s : State) : (pullRest s).frame = s.frame := rfl
@[simp] theorem pullRest_phase (s : State) : (pullRest s).phase = s.phase := rfl
@[simp] theorem pullRest_rxq (s : State) : (pullRest s).rxq = s.rxq.drop 1 := rfl
@[simp] theorem pullRest_txlog (s : State) : (pullRest s).txlog = s.txlog := rfl
@[simp] theorem pullRest_params (s : State) : (pullRest s).params = s.params := rfl
@[simp] theorem pullRest_response (s : State) : (pullRest s).response = s.response := rfl
@[simp] theorem pullRest_arrivals (s : State) : (pullRest s).arrivals = s.arrivals := rfl
@[simp] theorem pullRest_inputs (s : State) : (pullRest s).inputs = s.inputs := rfl

/-! ## blockRest -/

@[simp] theorem blockRest_reading (n : Nat) (s : State) : (blockRest n s).reading = s.reading := rfl
@[simp] theorem blockRest_mode (n : Nat) (s : State) : (blockRest n s).mode = s.mode := rfl
@[simp] theorem blockRest_lb (n : Nat) (s : State) : (blockRest n s).lb = s.lb := rfl
@[simp] theorem blockRest_iter (n : Nat) (s : State) : (blockRest n s).iter = s.iter := rfl
@[simp] theorem blockRest_frame (n : Nat) (s : State) : (blockRest n s).frame = s.frame := rfl
@[simp] theorem blockRest_phase (n : Nat) (s : State) : (blockRest n s).phase = s.phase := rfl
@[simp] theorem blockRest_rxq (n : Nat) (s : State) : (blockRest n s).rxq = s.rxq.drop n := rfl
@[simp] theorem blockRest_txlog (n : Nat) (s : State) : (blockRest n s).txlog = s.txlog := rfl
@[simp] theorem blockRest_params (n : Nat) (s : State) : (blockRest n s).params = s.params := rfl
@[simp] theorem blockRest_response (n : Nat) (s : State) : (blockRest n s).response = s.response := rfl
@[simp] theorem blockRest_arrivals (n : Nat) (s : State) : (blockRest n s).arrivals = s.arrivals := rfl
@[simp] theorem blockRest_inputs (n : Nat) (s : State) : (blockRest n s).inputs = s.inputs := rfl

/-! ## memWrite -/

@[simp] theorem memWrite_reading (f : CommandFrame) (s : State) : (memWrite f s).reading = s.reading := rfl
@[simp] theorem memWrite_mode (f : CommandFrame) (s : State) : (memWrite f s).mode = s.mode := rfl
@[simp] theorem memWrite_lb (f : CommandFrame) (s : State) : (memWrite f s).lb = s.lb := rfl
@[simp] theorem memWrite_iter (f : CommandFrame) (s : State) : (memWrite f s).iter = s.iter := rfl
@[simp] theorem memWrite_frame (f : CommandFrame) (s : State) : (memWrite f s).frame = s.frame := rfl
@[simp] theorem memWrite_phase (f : CommandFrame) (s : State) : (memWrite f s).phase = s.phase := rfl
@[simp] theorem memWrite_rxq (f : CommandFrame) (s : State) : (memWrite f s).rxq = s.rxq := rfl
@[simp] theorem memWrite_txlog (f : CommandFrame) (s : State) : (memWrite f s).txlog = s.txlog ++ f.toList := rfl
@[simp] theorem memWrite_params (f : CommandFrame) (s : State) : (memWrite f s).params = s.params := rfl
@[simp] theorem memWrite_response (f : CommandFrame) (s : State) : (memWrite f s).response = s.response := rfl
@[simp] theorem memWrite_arrivals (f : CommandFrame) (s : State) : (memWrite f s).arrivals = s.arrivals := rfl
@[simp] theorem memWrite_inputs (f : CommandFrame) (s : State) : (memWrite f s).inputs = s.inputs := rfl

/-! ## rxDrain -/

@[simp] theorem rxDrain_reading (s : State) : (rxDrain s).reading = s.reading := rfl
@[simp] theorem rxDrain_mode (s : State) : (rxDrain s).mode = s.mode := rfl
@[simp] theorem rxDrain_lb (s : State) : (rxDrain s).lb = s.lb := rfl
@[simp] theorem rxDrain_iter (s : State) : (rxDrain s).iter = s.iter := rfl
@[simp] theorem rxDrain_frame (s : State) : (rxDrain s).frame = s.frame := rfl
@[simp] theorem rxDrain_phase (s : State) : (rxDrain s).phase = s.phase := rfl
@[simp] theorem rxDrain_rxq (s : State) : (rxDrain s).rxq = [] := rfl
@[simp] theorem rxDrain_txlog (s : State) : (rxDrain s).txlog = s.txlog := rfl
@[simp] theorem rxDrain_params (s : State) : (rxDrain s).params = s.params := rfl
@[simp] theorem rxDrain_response (s : State) : (rxDrain s).response = s.response := rfl
@[simp] theorem rxDrain_arrivals (s : State) : (rxDrain s).arrivals = s.arrivals := rfl
@[simp] theorem rxDrain_inputs (s : State) : (rxDrain s).inputs = s.inputs := rfl

/-! ## send -/

@[simp] theorem send_reading (f : CommandFrame) (s : State) : (send f s).reading = s.reading := rfl
@[simp] theorem send_mode (f : CommandFrame) (s : State) : (send f s).mode = s.mode := rfl
@[simp] theorem send_lb (f : CommandFrame) (s : State) : (send f s).lb = s.lb := rfl
@[simp] theorem send_iter (f : CommandFrame) (s : State) : (send f s).iter = s.iter := rfl
@[simp] theorem send_frame (f : CommandFrame) (s : State) : (send f s).frame = s.frame := rfl
@[simp] theorem send_phase (f : CommandFrame) (s : State) : (send f s).phase = s.phase := rfl
@[simp] theorem send_rxq (f : CommandFrame) (s : State) : (send f s).rxq = s.rxq := rfl
@[simp] theorem send_txlog (f : CommandFrame) (s : State) : (send f s).txlog = s.txlog ++ f.toList := rfl
@[simp] theorem send_params (f : CommandFrame) (s : State) : (send f s).params = s.params := rfl
@[simp] theorem send_response (f : CommandFrame) (s : State) : (send f s).response = s.response := rfl
@[simp] theorem send_arrivals (f : CommandFrame) (s : State) : (send f s).arrivals = s.arrivals := rfl
@[simp] theorem send_inputs (f : CommandFrame) (s : State) : (send f s).inputs = s.inputs := rfl

/-! ## respond -/

@[simp] theorem respond_reading (r : Response) (s : State) : (respond r s).reading = s.reading := rfl
@[simp] theorem respond_mode (r : Response) (s : State) : (respond r s).mode = s.mode := rfl
@[simp] theorem respond_lb (r : Response) (s : State) : (respond r s).lb = s.lb := rfl
@[simp] theorem respond_iter (r : Response) (s : State) : (respond r s).iter = s.iter := rfl
@[simp] theorem respond_frame (r : Response) (s : State) : (respond r s).frame = s.frame := rfl
@[simp] theorem respond_phase (r : Response) (s : State) : (respond r s).phase = s.phase := rfl
@[simp] theorem respond_rxq (r : Response) (s : State) : (respond r s).rxq = s.rxq := rfl
@[simp] theorem respond_txlog (r : Response) (s : State) : (respond r s).txlog = s.txlog := rfl
@[simp] theorem respond_params (r : Response) (s : State) : (respond r s).params = s.params := rfl
@[simp] theorem respond_response (r : Response) (s : State) : (respond r s).response = some r := rfl
@[simp] theorem respond_arrivals (r : Response) (s : State) : (respond r s).arrivals = s.arrivals := rfl
@[simp] theorem respond_inputs (r : Response) (s : State) : (respond r s).inputs = s.inputs := rfl

/-! ## raise -/

@[simp] theorem raise_reading (c : ErrorCause) (s : State) : (raise c s).reading = none := rfl
@[simp] theorem raise_mode (c : ErrorCause) (s : State) : (raise c s).mode = s.mode := rfl
@[simp] theorem raise_lb (c : ErrorCause) (s : State) : (raise c s).lb = s.lb := rfl
@[simp] theorem raise_iter (c : ErrorCause) (s : State) : (raise c s).iter = s.iter := rfl
@[simp] theorem raise_frame (c : ErrorCause) (s : State) : (raise c s).frame = s.frame := rfl
@[simp] theorem raise_phase (c : ErrorCause) (s : State) : (raise c s).phase = .idle := rfl
@[simp] theorem raise_rxq (c : ErrorCause) (s : State) : (raise c s).rxq = s.rxq := rfl
@[simp] theorem raise_txlog (c : ErrorCause) (s : State) : (raise c s).txlog = s.txlog := rfl
@[simp] theorem raise_params (c : ErrorCause) (s : State) : (raise c s).params = s.params := rfl
@[simp] theorem raise_response (c : ErrorCause) (s : State) : (raise c s).response = some (.error c) := rfl
@[simp] theorem raise_arrivals (c : ErrorCause) (s : State) : (raise c s).arrivals = s.arrivals := rfl
@[simp] theorem raise_inputs (c : ErrorCause) (s : State) : (raise c s).inputs = s.inputs := rfl

/-! ## commit -/

@[simp] theorem commit_reading (r : Reading) (s : State) : (commit r s).reading = some r := rfl
@[simp] theorem commit_mode (r : Reading) (s : State) : (commit r s).mode = s.mode := rfl
@[simp] theorem commit_lb (r : Reading) (s : State) : (commit r s).lb = s.lb := rfl
@[simp] theorem commit_iter (r : Reading) (s : State) : (commit r s).iter = s.iter := rfl
@[simp] theorem commit_frame (r : Reading) (s : State) : (commit r s).frame = s.frame := rfl
@[simp] theorem commit_phase (r : Reading) (s : State) : (commit r s).phase = .idle := rfl
@[simp] theorem commit_rxq (r : Reading) (s : State) : (commit r s).rxq = s.rxq := rfl
@[simp] theorem commit_txlog (r : Reading) (s : State) : (commit r s).txlog = s.txlog := rfl
@[simp] theorem commit_params (r : Reading) (s : State) : (commit r s).params = s.params := rfl
@[simp] theorem commit_response (r : Reading) (s : State) : (commit r s).response = some (.okReading r) := rfl
@[simp] theorem commit_arrivals (r : Reading) (s : State) : (commit r s).arrivals = s.arrivals := rfl
@[simp] theorem commit_inputs (r : Reading) (s : State) : (commit r s).inputs = s.inputs := rfl

/-! ## enterScan -/

@[simp] theorem enterScan_reading (s : State) : (enterScan s).reading = s.reading := rfl
@[simp] theorem enterScan_mode (s : State) : (enterScan s).mode = s.mode := rfl
@[simp] theorem enterScan_lb (s : State) : (enterScan s).lb = none := rfl
@[simp] theorem enterScan_iter (s : State) : (enterScan s).iter = 0 := rfl
@[simp] theorem enterScan_frame (s : State) : (enterScan s).frame = s.frame := rfl
@[simp] theorem enterScan_phase (s : State) : (enterScan s).phase = .scan := rfl
@[simp] theorem enterScan_rxq (s : State) : (enterScan s).rxq = s.rxq := rfl
@[simp] theorem enterScan_txlog (s : State) : (enterScan s).txlog = s.txlog := rfl
@[simp] theorem enterScan_params (s : State) : (enterScan s).params = s.params := rfl
@[simp] theorem enterScan_response (s : State) : (enterScan s).response = s.response := rfl
@[simp] theorem enterScan_arrivals (s : State) : (enterScan s).arrivals = s.arrivals := rfl
@[simp] theorem enterScan_inputs (s : State) : (enterScan s).inputs = s.inputs := rfl

/-! ## resetBlock -/

@[simp] theorem resetBlock_reading (s : State) : (resetBlock s).reading = none := rfl
@[simp] theorem resetBlock_mode (s : State) : (resetBlock s).mode = s.params.initMode := rfl
@[simp] theorem resetBlock_lb (s : State) : (resetBlock s).lb = none := rfl
@[simp] theorem resetBlock_iter (s : State) : (resetBlock s).iter = 0 := rfl
@[simp] theorem resetBlock_frame (s : State) : (resetBlock s).frame = State.frameAtReset := rfl
@[simp] theorem resetBlock_phase (s : State) : (resetBlock s).phase = .idle := rfl
@[simp] theorem resetBlock_rxq (s : State) : (resetBlock s).rxq = s.rxq := rfl
@[simp] theorem resetBlock_txlog (s : State) : (resetBlock s).txlog = [] := rfl
@[simp] theorem resetBlock_params (s : State) : (resetBlock s).params = s.params := rfl
@[simp] theorem resetBlock_response (s : State) : (resetBlock s).response = none := rfl
@[simp] theorem resetBlock_arrivals (s : State) : (resetBlock s).arrivals = s.arrivals := rfl
@[simp] theorem resetBlock_inputs (s : State) : (resetBlock s).inputs = s.inputs := rfl

/-! ## envMove -/

@[simp] theorem envMove_reading (s : State) : (envMove s).reading = s.reading := by
  unfold envMove; split <;> rfl
@[simp] theorem envMove_mode (s : State) : (envMove s).mode = s.mode := by
  unfold envMove; split <;> rfl
@[simp] theorem envMove_lb (s : State) : (envMove s).lb = s.lb := by
  unfold envMove; split <;> rfl
@[simp] theorem envMove_iter (s : State) : (envMove s).iter = s.iter := by
  unfold envMove; split <;> rfl
@[simp] theorem envMove_frame (s : State) : (envMove s).frame = s.frame := by
  unfold envMove; split <;> rfl
@[simp] theorem envMove_phase (s : State) : (envMove s).phase = s.phase := by
  unfold envMove; split <;> rfl
@[simp] theorem envMove_txlog (s : State) : (envMove s).txlog = s.txlog := by
  unfold envMove; split <;> rfl
@[simp] theorem envMove_params (s : State) : (envMove s).params = s.params := by
  unfold envMove; split <;> rfl
@[simp] theorem envMove_response (s : State) : (envMove s).response = s.response := by
  unfold envMove; split <;> rfl
@[simp] theorem envMove_inputs (s : State) : (envMove s).inputs = s.inputs := by
  unfold envMove; split <;> rfl

/-- One list of the schedule is used up. -/
theorem envMove_arrivals (s : State) : (envMove s).arrivals = s.arrivals.tail := by
  unfold envMove; split <;> simp [*]

theorem envMove_nil {s : State} (h : s.arrivals = []) : envMove s = s := by
  simp [envMove, h]

theorem envMove_cons {s : State} {bs : List Byte} {rest : List (List Byte)} (h : s.arrivals = bs :: rest) :
    envMove s = { s with rxq := s.rxq ++ bs, arrivals := rest } := by
  simp [envMove, h, receive]

/-- The environment only appends: nothing on its way is lost, doubled or reordered (R32). -/
theorem envMove_pending (s : State) :
    (envMove s).rxq ++ (envMove s).arrivals.flatten = s.rxq ++ s.arrivals.flatten := by
  cases h : s.arrivals with
  | nil => rw [envMove_nil h, h]
  | cons bs rest => simp [envMove_cons h]

end Sys2Proof.Machine
end

