-- ==== Sys2Proof/Laws/Reader.lean ====
section
/-!
SUPPORT. What each part of read_frame can do: one pull, the scan as a function of the event sequence (R33, R69), the payload
read, the checks.
-/

namespace Sys2Proof.Machine

/-! ## Streams of states that agree on RXQ and the schedule -/

theorem envMove_rxq_congr {s t : State} (h : s.rxq = t.rxq) (h' : s.arrivals = t.arrivals) :
    (envMove s).rxq = (envMove t).rxq := by
  unfold envMove
  cases ht : t.arrivals <;> simp [h', ht, h, receive]

theorem envMove_arrivals_congr {s t : State} (h' : s.arrivals = t.arrivals) :
    (envMove s).arrivals = (envMove t).arrivals := by
  unfold envMove
  cases ht : t.arrivals <;> simp [h', ht]

theorem pullEvent_congr {s t : State} (h : s.rxq = t.rxq) : pullEvent s = pullEvent t := by
  simp [pullEvent, h]

theorem rxEvents_congr (n : Nat) {s t : State} (h : s.rxq = t.rxq) (h' : s.arrivals = t.arrivals) :
    rxEvents n s = rxEvents n t := by
  induction n generalizing s t with
  | zero => rfl
  | succ n ih =>
    have hq := envMove_rxq_congr h h'
    rw [rxEvents, rxEvents, pullEvent_congr hq,
      ih (s := pullRest (envMove s)) (t := pullRest (envMove t)) (by simp [hq]) (by simp [envMove_arrivals_congr h'])]

theorem afterPulls_congr (n : Nat) {s t : State} (h : s.rxq = t.rxq) (h' : s.arrivals = t.arrivals) :
    (afterPulls n s).rxq = (afterPulls n t).rxq ∧ (afterPulls n s).arrivals = (afterPulls n t).arrivals := by
  induction n generalizing s t with
  | zero => exact ⟨h, h'⟩
  | succ n ih =>
    exact ih (by simp [envMove_rxq_congr h h']) (by simp [envMove_arrivals_congr h'])

@[simp] theorem rxEvents_length (n : Nat) (s : State) : (rxEvents n s).length = n := by
  induction n generalizing s with
  | zero => rfl
  | succ n ih => simp [rxEvents, ih]

/-- Pulls touch nothing but RXQ and the schedule. -/
theorem afterPulls_eq (n : Nat) (s : State) :
    afterPulls n s = { s with rxq := (afterPulls n s).rxq, arrivals := (afterPulls n s).arrivals } := by
  induction n generalizing s with
  | zero => rfl
  | succ n ih =>
    rw [afterPulls, ih]
    simp [pullRest]

/-- The environment touches nothing but RXQ and the schedule (R33). -/
theorem envMove_eq (s : State) :
    envMove s = { s with rxq := (envMove s).rxq, arrivals := (envMove s).arrivals } := by
  unfold envMove
  split <;> rfl

/-! ## One pull -/

/-- Everything one scan iteration can do (R65 to R67). -/
theorem scanPull_cases (s : State) :
    (s.lb = some Config.marker0 ∧ pullEvent (envMove s) = .byte Config.marker1 ∧
      scanPull s = { pullRest (envMove s) with iter := s.iter + 1, phase := .payload }) ∨
    (¬ (s.lb = some Config.marker0 ∧ pullEvent (envMove s) = .byte Config.marker1) ∧
      scanPull s = { pullRest (envMove s) with iter := s.iter + 1, lb := (pullEvent (envMove s)).lookback }) := by
  unfold scanPull
  by_cases h : s.lb = some Config.marker0 ∧ pullEvent (envMove s) = .byte Config.marker1
  · exact .inl ⟨h.1, h.2, by simp [h.1, h.2]⟩
  · refine .inr ⟨h, ?_⟩
    simp only [h, if_false, delay_eq, ite_self]

/-! ## The scan as a function of the events -/

/-- The pull number `j` completes the marker when the lookback before the first pull is `lb`. -/
def Completes : Option Byte → List RxEvent → Nat → Prop
  | _, [], _ => False
  | _, _ :: _, 0 => False
  | lb, e :: _, 1 => lb = some Config.marker0 ∧ e = .byte Config.marker1
  | _, e :: es, j + 2 => Completes e.lookback es (j + 1)

/-- The lookback the last event leaves, `lb` when there is none. -/
def lastLookback : Option Byte → List RxEvent → Option Byte
  | lb, [] => lb
  | _, e :: es => lastLookback e.lookback es

/-- A scan that starts with an empty lookback ends with the last event's. -/
theorem lastLookback_none (es : List RxEvent) : lastLookback none es = es.getLast?.bind RxEvent.lookback := by
  have key : ∀ (es : List RxEvent) (e : RxEvent) (lb : Option Byte),
      lastLookback lb (e :: es) = (e :: es).getLast?.bind RxEvent.lookback := by
    intro es
    induction es with
    | nil => intro e lb; rfl
    | cons e' es ih => intro e lb; rw [lastLookback, ih, List.getLast?_cons_cons]
  cases es with
  | nil => rfl
  | cons e es => exact key es e none

theorem lookback_eq_some {e : RxEvent} {b : Byte} : e.lookback = some b ↔ e = .byte b := by
  cases e <;> simp [RxEvent.lookback]

theorem completes_iff (lb : Option Byte) (es : List RxEvent) (j : Nat) :
    Completes lb es j ↔ es[j - 1]? = some (.byte 0x4D) ∧
      ((j = 1 ∧ lb = some 0x42) ∨ (2 ≤ j ∧ es[j - 2]? = some (.byte 0x42))) := by
  induction es generalizing lb j with
  | nil => simp [Completes]
  | cons e es ih =>
    match j with
    | 0 => simp [Completes]
    | 1 => simp [Completes, Config.marker0, Config.marker1, and_comm]
    | 2 => simp [Completes, ih, lookback_eq_some]
    | j + 3 => simp [Completes, ih]

/-- The marker of R69 (b) is what a scan from an empty lookback completes. -/
theorem markerAt_iff (es : List RxEvent) (j : Nat) : MarkerAt es j ↔ Completes none es j := by
  rw [completes_iff]
  constructor
  · rintro ⟨h, h0, h1⟩; exact ⟨h1, .inr ⟨h, h0⟩⟩
  · rintro ⟨h1, h | ⟨h, h0⟩⟩
    · exact absurd h.2 (by simp)
    · exact ⟨h, h0, h1⟩

/-- A scan of `n` pulls none of which completes the marker makes them all (R68). -/
theorem scan_not_found (n : Nat) (s : State) (hp : s.phase = .scan) (h : ∀ j, ¬ Completes s.lb (rxEvents n s) j) :
    scan n s = { s with
      rxq := (afterPulls n s).rxq, arrivals := (afterPulls n s).arrivals,
      iter := s.iter + n, lb := lastLookback s.lb (rxEvents n s) } := by
  induction n generalizing s with
  | zero => rfl
  | succ n ih =>
    obtain ⟨h0, h1, -⟩ | ⟨-, hs⟩ := scanPull_cases s
    · exact absurd ⟨h0, h1⟩ (h 1)
    · have hph : (scanPull s).phase = .scan := by simp [hs, hp]
      have hr : (scanPull s).rxq = (pullRest (envMove s)).rxq := by simp [hs]
      have ha : (scanPull s).arrivals = (pullRest (envMove s)).arrivals := by simp [hs]
      have hl : (scanPull s).lb = (pullEvent (envMove s)).lookback := by simp [hs]
      have he := rxEvents_congr n hr ha
      have key := ih (scanPull s) hph (by
        intro j hj
        rw [he, hl] at hj
        match j with
        | 0 => cases hx : rxEvents n (pullRest (envMove s)) <;> simp [hx, Completes] at hj
        | j + 1 => exact h (j + 2) hj)
      rw [scan, hph, key, he, hl, (afterPulls_congr n hr ha).1, (afterPulls_congr n hr ha).2]
      simp [hs, rxEvents, lastLookback, afterPulls, Nat.add_comm, Nat.add_left_comm]

/-- A scan stops at the first pull that completes the marker (R65, R66, R69 (b)). -/
theorem scan_found (n j : Nat) (s : State) (hp : s.phase = .scan) (h : Completes s.lb (rxEvents n s) j)
    (hmin : ∀ k, k < j → ¬ Completes s.lb (rxEvents n s) k) :
    scan n s = { s with
      rxq := (afterPulls j s).rxq, arrivals := (afterPulls j s).arrivals,
      iter := s.iter + j, lb := some Config.marker0, phase := .payload } := by
  induction n generalizing s j with
  | zero => simp [rxEvents, Completes] at h
  | succ n ih =>
    match j with
    | 0 => simp [rxEvents, Completes] at h
    | 1 =>
      obtain ⟨h0, h1, hs⟩ | ⟨hn, -⟩ := scanPull_cases s
      · rw [scan, hs]
        simp [afterPulls, pullRest, h0]
      · exact absurd h hn
    | j + 2 =>
      obtain ⟨h0, h1, -⟩ | ⟨-, hs⟩ := scanPull_cases s
      · exact absurd ⟨h0, h1⟩ (hmin 1 (by omega))
      · have hph : (scanPull s).phase = .scan := by simp [hs, hp]
        have hr : (scanPull s).rxq = (pullRest (envMove s)).rxq := by simp [hs]
        have ha : (scanPull s).arrivals = (pullRest (envMove s)).arrivals := by simp [hs]
        have hl : (scanPull s).lb = (pullEvent (envMove s)).lookback := by simp [hs]
        have he := rxEvents_congr n hr ha
        have key := ih (j + 1) (scanPull s) hph (by rw [he, hl]; exact h) (by
          intro k hk hj
          rw [he, hl] at hj
          match k with
          | 0 => cases hx : rxEvents n (pullRest (envMove s)) <;> simp [hx, Completes] at hj
          | k + 1 => exact hmin (k + 2) (by omega) hj)
        rw [scan, hph, key, (afterPulls_congr (j + 1) hr ha).1, (afterPulls_congr (j + 1) hr ha).2]
        simp [hs, afterPulls, Nat.add_comm, Nat.add_left_comm]

/-- However a scan ends: it found the marker at some pull, or it made every pull. -/
theorem scan_cases (n : Nat) (s : State) (hp : s.phase = .scan) :
    (∃ j ≤ n, scan n s = { s with
      rxq := (afterPulls j s).rxq, arrivals := (afterPulls j s).arrivals,
      iter := s.iter + j, lb := some Config.marker0, phase := .payload }) ∨
    (∃ lb, scan n s = { s with
      rxq := (afterPulls n s).rxq, arrivals := (afterPulls n s).arrivals, iter := s.iter + n, lb := lb }) := by
  classical
  by_cases h : ∃ j, Completes s.lb (rxEvents n s) j
  · have hj := Nat.find_spec h
    refine .inl ⟨Nat.find h, ?_, scan_found n _ s hp hj fun k hk => Nat.find_min h hk⟩
    have := ((completes_iff _ _ _).1 hj).1
    have hlt := (List.getElem?_eq_some_iff.1 this).1
    simp at hlt
    omega
  · exact .inr ⟨_, scan_not_found n s hp (not_exists.1 h)⟩

/-! ## The payload read and the checks -/

/-- Everything the payload read can do (R71, R72). -/
theorem pullPayload_cases (s : State) :
    (∃ h : ((envMove s).rxq.take 30).length = 30, pullPayload s =
      { blockRest 30 (envMove s) with frame := assembleFrame ((envMove s).rxq.take 30) h, phase := .check }) ∨
    ((envMove s).rxq.length < 30 ∧
      pullPayload s = raise (.shortFrame (BitVec.ofNat 5 (envMove s).rxq.length)) (blockRest 30 (envMove s))) := by
  unfold pullPayload takeRemainder
  simp only [activeSettle_eq]
  by_cases h : (blockBytes 30 (envMove s)).length = 30
  · exact .inl ⟨h, dif_pos h⟩
  · have hl : (envMove s).rxq.length < 30 ∧ (blockBytes 30 (envMove s)).length = (envMove s).rxq.length := by
      simp only [blockBytes, List.length_take] at h ⊢
      omega
    exact .inr ⟨hl.1, by rw [dif_neg h, hl.2]⟩

/-- Everything the checks can do, in the order of R111. -/
theorem checkFrame_cases (s : State) :
    (¬ checksumPasses s.frame ∧
      checkFrame s = raise (.checksumMismatch (rxChecksum s.frame) (dataChecksum s.frame)) s) ∨
    (checksumPasses s.frame ∧ payloadIsZero s.frame ∧ checkFrame s = raise .zeroPayload s) ∨
    (checksumPasses s.frame ∧ ¬ payloadIsZero s.frame ∧ s.frame[29] ≠ 0 ∧
      checkFrame s = raise (.sensorError s.frame[29]) s) ∨
    (checksumPasses s.frame ∧ ¬ payloadIsZero s.frame ∧ s.frame[29] = 0 ∧
      checkFrame s = commit (decodeReading s.frame) s) := by
  unfold checkFrame
  by_cases h1 : checksumPasses s.frame
  · by_cases h2 : payloadIsZero s.frame
    · exact .inr (.inl ⟨h1, h2, by simp [h1, h2]⟩)
    · by_cases h3 : s.frame[29] = 0
      · exact .inr (.inr (.inr ⟨h1, h2, h3, by
          have : (decodeReading s.frame).error_code = 0 := h3
          simp [h1, h2, this]⟩))
      · exact .inr (.inr (.inl ⟨h1, h2, h3, by
          have : ¬ (decodeReading s.frame).error_code = 0 := h3
          simp only [h1, h2, this, not_true_eq_false, if_false, ne_eq, not_false_eq_true, if_true]
          rfl⟩))
  · exact .inl ⟨h1, by simp [h1]⟩

/-! ## read_frame by the way its scan ends -/

theorem readFrame_noStart {s t : State} (h : scan s.params.maxScanIter (enterScan s) = t) (hp : t.phase = .scan) :
    readFrame s = raise .noStart t := by
  unfold readFrame
  simp [h, hp]

theorem readFrame_short {s t u : State} (h : scan s.params.maxScanIter (enterScan s) = t) (hp : t.phase = .payload)
    (hu : pullPayload t = u) (hi : u.phase = .idle) : readFrame s = u := by
  unfold readFrame
  simp [h, hp, hu, hi]

theorem readFrame_check {s t u : State} (h : scan s.params.maxScanIter (enterScan s) = t) (hp : t.phase = .payload)
    (hu : pullPayload t = u) (hi : u.phase = .check) : readFrame s = checkFrame u := by
  unfold readFrame
  simp [h, hp, hu, hi]

/-- Everything a read_frame can do: the marker is never found; or it is found at some pull and the remainder is short; or
the candidate frame is assembled and checked. -/
theorem readFrame_cases (s : State) :
    (∃ lb, readFrame s = raise .noStart { s with
      phase := .scan, lb := lb, iter := s.params.maxScanIter,
      rxq := (afterPulls s.params.maxScanIter s).rxq, arrivals := (afterPulls s.params.maxScanIter s).arrivals }) ∨
    (∃ j ≤ s.params.maxScanIter, (envMove (afterPulls j s)).rxq.length < 30 ∧
      readFrame s = raise (.shortFrame (BitVec.ofNat 5 (envMove (afterPulls j s)).rxq.length)) { s with
        phase := .payload, lb := some Config.marker0, iter := j,
        rxq := [], arrivals := (envMove (afterPulls j s)).arrivals }) ∨
    (∃ j ≤ s.params.maxScanIter, ∃ h : ((envMove (afterPulls j s)).rxq.take 30).length = 30,
      readFrame s = checkFrame { s with
        phase := .check, lb := some Config.marker0, iter := j,
        frame := assembleFrame ((envMove (afterPulls j s)).rxq.take 30) h,
        rxq := (envMove (afterPulls j s)).rxq.drop 30, arrivals := (envMove (afterPulls j s)).arrivals }) := by
  obtain ⟨j, hj, hs⟩ | ⟨lb, hs⟩ := scan_cases s.params.maxScanIter (enterScan s) rfl
  · have hc := afterPulls_congr j (s := enterScan s) (t := s) rfl rfl
    rw [hc.1, hc.2] at hs
    generalize hsc : scan s.params.maxScanIter (enterScan s) = t at hs
    have hrx : t.rxq = (afterPulls j s).rxq := by rw [hs]
    have har : t.arrivals = (afterPulls j s).arrivals := by rw [hs]
    have hq := envMove_rxq_congr hrx har
    have ha := envMove_arrivals_congr har
    have hp : t.phase = .payload := by rw [hs]
    have hqe : envMove t = { s with
        phase := .payload, lb := some Config.marker0, iter := j,
        rxq := (envMove (afterPulls j s)).rxq, arrivals := (envMove (afterPulls j s)).arrivals } := by
      rw [envMove_eq t, hq, ha, hs]
      simp [enterScan]
    obtain ⟨h, hu⟩ | ⟨h, hu⟩ := pullPayload_cases t
    · refine .inr (.inr ⟨j, hj, by rw [← hq]; exact h, ?_⟩)
      rw [readFrame_check hsc hp hu rfl]
      simp only [hqe, blockRest]
    · rw [hq] at h
      refine .inr (.inl ⟨j, hj, h, ?_⟩)
      rw [readFrame_short hsc hp hu rfl]
      simp only [hqe, blockRest, List.drop_eq_nil_of_le h.le]
  · have hc := afterPulls_congr s.params.maxScanIter (s := enterScan s) (t := s) rfl rfl
    rw [hc.1, hc.2] at hs
    refine .inl ⟨lb, ?_⟩
    rw [readFrame_noStart hs rfl]
    simp [enterScan]

end Sys2Proof.Machine
end

