-- ==== Sys2Proof/Laws/Frames.lean ====
section
/-!
SUPPORT. Bytes, frames and sums: byte order, the layouts read back, the two checks in the terms of the claims, and read_frame
on a candidate frame.
-/

namespace Sys2Proof.Machine

/-! ## Byte order -/

@[simp] theorem beWord_hiByte_loByte (v : Word16) : beWord (hiByte v) (loByte v) = v := by
  apply BitVec.eq_of_toNat_eq
  simp [beWord, hiByte, loByte, BitVec.extractLsb'_toNat, Nat.shiftRight_eq_div_pow]
  omega

@[simp] theorem hiByte_beWord (hi lo : Byte) : hiByte (beWord hi lo) = hi := by
  apply BitVec.eq_of_toNat_eq
  simp [beWord, hiByte, BitVec.extractLsb'_toNat, Nat.shiftRight_eq_div_pow]
  omega

@[simp] theorem loByte_beWord (hi lo : Byte) : loByte (beWord hi lo) = lo := by
  apply BitVec.eq_of_toNat_eq
  simp [beWord, loByte, BitVec.extractLsb'_toNat]
  omega

/-! ## Layouts -/

/-- A data frame read back gives the fields it was laid out from (R48, R49). -/
@[simp] theorem decodeReading_dataBytes (l : Word16) (r : Reading) (hi lo : Byte) :
    decodeReading (dataBytes l r hi lo) = r := by
  simp [decodeReading, dataBytes]

/-- The bytes of the candidate frame, in order (R72). -/
@[simp] theorem assembleFrame_toList (p : List Byte) (h : p.length = 30) :
    (assembleFrame p h).toList = 0x42 :: 0x4D :: p := rfl

/-- The candidate frame opens with the marker (R72). -/
theorem assembleFrame_marker (p : List Byte) (h : p.length = 30) : HasMarker (assembleFrame p h) := ⟨rfl, rfl⟩

/-- Assembling the last thirty bytes of a frame with the marker gives the frame back (R72). -/
theorem assembleFrame_drop {f : DataFrame} (hf : HasMarker f) {p : List Byte} (hp : p = f.toList.drop 2)
    (h : p.length = 30) : assembleFrame p h = f := by
  subst hp
  apply Vector.toList_inj.1
  rw [assembleFrame_toList]
  obtain ⟨h0, h1⟩ := hf
  have e0 : f.toList[0]? = some 0x42 := by rw [← h0]; simp
  have e1 : f.toList[1]? = some 0x4D := by rw [← h1]; simp
  match hl : f.toList, e0, e1 with
  | a :: b :: rest, e0, e1 => simp_all

/-! ## The two checks -/

/-- R73 in the terms of the claims. -/
theorem sumPasses_iff (f : DataFrame) : SumPasses f ↔ checksumPasses f := by
  exact ⟨fun h => h.symm, fun h => h.symm⟩

/-- R74: an unreduced sum is zero exactly when every byte of the region is. -/
theorem zeroRegion_iff (f : DataFrame) : ZeroRegion f ↔ payloadIsZero f := by
  have key : payloadIsZero f ↔ ∀ b ∈ (f.toList.drop 2).take 26, b = 0#8 := by
    simp only [payloadIsZero, zeroSum, byteSum, Config.zsumFirst, Config.zsumLast, List.sum_eq_zero_iff, List.mem_map,
      forall_exists_index, and_imp, forall_apply_eq_imp_iff₂]
    exact forall₂_congr fun b _ => by rw [← BitVec.toNat_inj]; rfl
  rw [key]
  constructor
  · intro h b hb
    obtain ⟨i, hi, rfl⟩ := List.getElem_of_mem hb
    simp only [List.length_take, List.length_drop, Vector.length_toList] at hi
    have := h ⟨i + 2, by omega⟩ (by simp) (by simp; omega)
    simpa [Nat.add_comm] using this
  · intro h i h2 h27
    apply h
    have : (f.toList.drop 2).take 26 = (f.toList.drop 2).take 26 := rfl
    refine List.mem_iff_getElem.2 ⟨i.val - 2, by simp; omega, ?_⟩
    have e : 2 + (i.val - 2) = i.val := by omega
    simp [e]

/-! ## read_frame on a candidate -/

/-- When no pull completes the marker (R68). -/
theorem readFrame_noMarker {s : State} (h : NoMarker (rxEvents s.params.maxScanIter s)) :
    readFrame s = raise .noStart { s with
      phase := .scan, iter := s.params.maxScanIter,
      lb := (rxEvents s.params.maxScanIter s).getLast?.bind RxEvent.lookback,
      rxq := (afterPulls s.params.maxScanIter s).rxq, arrivals := (afterPulls s.params.maxScanIter s).arrivals } := by
  have he := rxEvents_congr s.params.maxScanIter (s := enterScan s) (t := s) rfl rfl
  have hc := afterPulls_congr s.params.maxScanIter (s := enterScan s) (t := s) rfl rfl
  have hn : ∀ j, ¬ Completes (enterScan s).lb (rxEvents s.params.maxScanIter (enterScan s)) j := by
    intro j hj
    rw [he] at hj
    have hm := (markerAt_iff _ j).2 hj
    have := (List.getElem?_eq_some_iff.1 hm.2.2).1
    exact h j (by omega) hm
  have hs := scan_not_found _ _ rfl hn
  rw [hc.1, hc.2] at hs
  rw [readFrame_noStart hs rfl, he, ← lastLookback_none]
  simp [enterScan]

/-- When the scan finds the marker at its pull number `j` (R65, R66). -/
theorem scan_firstMarker {s : State} {j : Nat} (h : FirstMarker (rxEvents s.params.maxScanIter s) j) :
    scan s.params.maxScanIter (enterScan s) = { s with
      phase := .payload, lb := some Config.marker0, iter := j,
      rxq := (afterPulls j s).rxq, arrivals := (afterPulls j s).arrivals } := by
  have he := rxEvents_congr s.params.maxScanIter (s := enterScan s) (t := s) rfl rfl
  have hc := afterPulls_congr j (s := enterScan s) (t := s) rfl rfl
  have hs := scan_found s.params.maxScanIter j (enterScan s) rfl (by rw [he]; exact (markerAt_iff _ _).1 h.1)
    (by intro k hk; rw [he]; exact fun hk' => h.2 k hk ((markerAt_iff _ _).2 hk'))
  rw [hs, hc.1, hc.2]
  simp [enterScan]

/-- The state in which the payload read finds the streams after a match at pull `j`. -/
theorem envMove_firstMarker (s : State) (j : Nat) :
    envMove { s with
      phase := .payload, lb := some Config.marker0, iter := j,
      rxq := (afterPulls j s).rxq, arrivals := (afterPulls j s).arrivals } =
    { s with
      phase := .payload, lb := some Config.marker0, iter := j,
      rxq := (envMove (afterPulls j s)).rxq, arrivals := (envMove (afterPulls j s)).arrivals } := by
  cases h : (afterPulls j s).arrivals with
  | nil =>
    rw [envMove_nil h, envMove_nil rfl]
    simp [h]
  | cons bs rest => rw [envMove_cons h, envMove_cons rfl]

/-- A short remainder (R71). -/
theorem readFrame_firstMarker_short {s : State} {j : Nat} (h : FirstMarker (rxEvents s.params.maxScanIter s) j)
    (hl : (envMove (afterPulls j s)).rxq.length < 30) :
    readFrame s = raise (.shortFrame (BitVec.ofNat 5 (envMove (afterPulls j s)).rxq.length)) { s with
      phase := .payload, lb := some Config.marker0, iter := j,
      rxq := [], arrivals := (envMove (afterPulls j s)).arrivals } := by
  have hs := scan_firstMarker h
  obtain ⟨h', -⟩ | ⟨-, hu⟩ := pullPayload_cases { s with
      phase := .payload, lb := some Config.marker0, iter := j,
      rxq := (afterPulls j s).rxq, arrivals := (afterPulls j s).arrivals }
  · rw [envMove_firstMarker] at h'
    simp only [List.length_take] at h'
    omega
  · rw [readFrame_short hs rfl hu rfl, envMove_firstMarker]
    simp [blockRest, List.drop_eq_nil_of_le hl.le]

/-- A whole candidate frame is checked (R72). -/
theorem readFrame_candidate {s : State} {j : Nat} {f : DataFrame} {rest : List Byte} (c : Candidate s j f rest) :
    readFrame s = checkFrame { afterCandidate s j f rest with phase := .check } := by
  have hs := scan_firstMarker c.found
  have hl : (f.toList.drop 2).length = 30 := by simp
  have ht : (envMove (afterPulls j s)).rxq.take 30 = f.toList.drop 2 := by rw [c.remainder, List.take_left' hl]
  have hd : (envMove (afterPulls j s)).rxq.drop 30 = rest := by rw [c.remainder, List.drop_left' hl]
  obtain ⟨h', hu⟩ | ⟨h', -⟩ := pullPayload_cases { s with
      phase := .payload, lb := some Config.marker0, iter := j,
      rxq := (afterPulls j s).rxq, arrivals := (afterPulls j s).arrivals }
  · rw [readFrame_check hs rfl hu rfl]
    have hf := assembleFrame_drop c.marker (p := (envMove { s with
      phase := .payload, lb := some Config.marker0, iter := j,
      rxq := (afterPulls j s).rxq, arrivals := (afterPulls j s).arrivals }).rxq.take 30)
      (by rw [envMove_firstMarker]; exact ht) h'
    rw [hf, envMove_firstMarker]
    simp [blockRest, hd, afterCandidate, Config.marker0]
  · rw [envMove_firstMarker] at h'
    have := congrArg List.length c.remainder
    simp at this h'
    omega

end Sys2Proof.Machine
end

