-- ==== Sys2Proof/Laws/Machine.lean ====
section
/-!
SUPPORT. What a whole read_frame leaves and answers, which state it depends on, what the pulls consume, and the shape of
get_field, of sending and of frame.command.
-/

namespace Sys2Proof.Machine

/-! ## read_frame as a whole -/

/-- However a read_frame ends, this is what it leaves alone and where it stops (R26, R117). -/
theorem readFrame_frame (s : State) :
    (readFrame s).mode = s.mode ∧ (readFrame s).params = s.params ∧ (readFrame s).txlog = s.txlog ∧
    (readFrame s).inputs = s.inputs ∧ (readFrame s).phase = .idle ∧ (readFrame s).iter ≤ s.params.maxScanIter := by
  obtain ⟨lb, h⟩ | ⟨j, hj, -, h⟩ | ⟨j, hj, hl, h⟩ := readFrame_cases s
  · simp [h]
  · simp [h, hj]
  · rw [h]
    obtain ⟨-, e⟩ | ⟨-, -, e⟩ | ⟨-, -, -, e⟩ | ⟨-, -, -, e⟩ := checkFrame_cases { s with
      phase := .check, lb := some Config.marker0, iter := j,
      frame := assembleFrame ((envMove (afterPulls j s)).rxq.take 30) hl,
      rxq := (envMove (afterPulls j s)).rxq.drop 30, arrivals := (envMove (afterPulls j s)).arrivals } <;>
      simp [e, hj]

/-- A read_frame answers an error and leaves no Reading, or answers the Reading of a good frame and caches it (R76, R78). -/
theorem readFrame_answer (s : State) :
    (∃ c, (readFrame s).response = some (.error c) ∧ (readFrame s).reading = none) ∨
    (∃ r, (readFrame s).response = some (.okReading r) ∧ (readFrame s).reading = some r ∧
      GoodFrame (readFrame s).frame ∧ r = decodeReading (readFrame s).frame) := by
  obtain ⟨lb, h⟩ | ⟨j, -, -, h⟩ | ⟨j, -, hl, h⟩ := readFrame_cases s
  · simp [h]
  · simp [h]
  · rw [h]
    obtain ⟨-, e⟩ | ⟨-, -, e⟩ | ⟨-, -, -, e⟩ | ⟨h1, h2, h3, e⟩ := checkFrame_cases { s with
      phase := .check, lb := some Config.marker0, iter := j,
      frame := assembleFrame ((envMove (afterPulls j s)).rxq.take 30) hl,
      rxq := (envMove (afterPulls j s)).rxq.drop 30, arrivals := (envMove (afterPulls j s)).arrivals } <;> rw [e]
    · simp
    · simp
    · simp
    · exact .inr ⟨_, rfl, rfl,
        ⟨assembleFrame_marker _ hl, (sumPasses_iff _).2 h1, fun z => h2 ((zeroRegion_iff _).1 z), h3⟩, rfl⟩

/-- The events a read_frame sees hold no marker, or a first marker followed by a short remainder or by a candidate. -/
theorem readFrame_inputs (s : State) :
    NoMarker (rxEvents s.params.maxScanIter s) ∨
    ∃ j, FirstMarker (rxEvents s.params.maxScanIter s) j ∧
      ((envMove (afterPulls j s)).rxq.length < 30 ∨ ∃ f rest, Candidate s j f rest) := by
  classical
  by_cases hn : NoMarker (rxEvents s.params.maxScanIter s)
  · exact .inl hn
  · have hex : ∃ j, MarkerAt (rxEvents s.params.maxScanIter s) j := by
      by_contra hc
      exact hn fun k _ hk => hc ⟨k, hk⟩
    refine .inr ⟨Nat.find hex, ⟨Nat.find_spec hex, fun k hk => Nat.find_min hex hk⟩, ?_⟩
    by_cases hl : (envMove (afterPulls (Nat.find hex) s)).rxq.length < 30
    · exact .inl hl
    · have h30 : ((envMove (afterPulls (Nat.find hex) s)).rxq.take 30).length = 30 := by
        rw [List.length_take]; omega
      exact .inr ⟨assembleFrame _ h30, (envMove (afterPulls (Nat.find hex) s)).rxq.drop 30,
        ⟨Nat.find_spec hex, fun k hk => Nat.find_min hex hk⟩, assembleFrame_marker _ h30,
        by rw [assembleFrame_toList]; simp⟩

/-! ## What the pulls consume -/

/-- Pulls take bytes off the head of what is buffered and of what is to arrive, in order (R32). -/
theorem afterPulls_pending (n : Nat) (s : State) : ∃ taken : List Byte,
    s.rxq ++ s.arrivals.flatten = taken ++ ((afterPulls n s).rxq ++ (afterPulls n s).arrivals.flatten) := by
  induction n generalizing s with
  | zero => exact ⟨[], rfl⟩
  | succ n ih =>
    obtain ⟨taken, h⟩ := ih (pullRest (envMove s))
    refine ⟨(envMove s).rxq.take 1 ++ taken, ?_⟩
    rw [← envMove_pending, List.append_assoc, afterPulls, ← h, pullRest_rxq, pullRest_arrivals, ← List.append_assoc,
      List.take_append_drop]

/-- While RXQ holds enough, `n` pulls take its first `n` bytes and let `n` moves of the environment in. -/
theorem afterPulls_buffered (n : Nat) (s : State) (h : n ≤ s.rxq.length) :
    (afterPulls n s).rxq = s.rxq.drop n ++ (s.arrivals.take n).flatten ∧
    (afterPulls n s).arrivals = s.arrivals.drop n := by
  induction n generalizing s with
  | zero => simp [afterPulls]
  | succ n ih =>
    cases ha : s.arrivals with
    | nil =>
      obtain ⟨a, b⟩ := ih (pullRest (envMove s)) (by simp [envMove_nil ha]; omega)
      rw [afterPulls, a, b]
      simp [envMove_nil ha, ha]
    | cons bs more =>
      obtain ⟨a, b⟩ := ih (pullRest (envMove s)) (by simp [envMove_cons ha]; omega)
      rw [afterPulls, a, b]
      simp [envMove_cons ha]
      rw [List.drop_append_of_le_length (by omega)]
      simp

/-- While RXQ holds enough, the events are its bytes. -/
theorem rxEvents_buffered (m i : Nat) (s : State) (hi : i < s.rxq.length) (hm : i < m) :
    (rxEvents m s)[i]? = (s.rxq[i]?).map RxEvent.byte := by
  induction m generalizing s i with
  | zero => omega
  | succ m ih =>
    obtain ⟨q, hq⟩ : ∃ q, (envMove s).rxq = s.rxq ++ q := by
      cases ha : s.arrivals with
      | nil => exact ⟨[], by simp [envMove_nil ha]⟩
      | cons a b => exact ⟨a, by simp [envMove_cons ha]⟩
    cases i with
    | zero =>
      cases hr : s.rxq with
      | nil => simp [hr] at hi
      | cons b q' => simp [rxEvents, pullEvent, hq, hr]
    | succ i =>
      rw [rxEvents, List.getElem?_cons_succ, ih i _ (by simp [hq]; omega) (by omega)]
      simp only [pullRest_rxq, hq]
      rw [List.getElem?_drop, Nat.add_comm 1 i, List.getElem?_append_left hi]

/-! ## get_field and sending -/

/-- get_field answers in the response port and does nothing else (R95 to R97). -/
theorem execGetField_cases (idx : BitVec 4) (s : State) :
    ∃ r, execGetField idx s = .next (respond r s) ∧
      (r = .illegalOp ∨ (r = .absent ∧ s.reading = none) ∨
        ∃ v x, r = .present v ∧ s.reading = some x ∧ readingField x idx = some v) := by
  unfold execGetField
  by_cases hk : Config.nFields ≤ idx.toNat
  · exact ⟨.illegalOp, by rw [if_pos hk]; rfl, .inl rfl⟩
  · rw [if_neg hk]
    cases hr : s.reading with
    | none => exact ⟨.absent, rfl, .inr (.inl ⟨rfl, rfl⟩)⟩
    | some x =>
      cases hv : readingField x idx with
      | none => exact ⟨.illegalOp, by simp only [hv]; rfl, .inl rfl⟩
      | some v => exact ⟨.present v, by simp only [hv], .inr (.inr ⟨v, x, rfl, rfl, hv⟩)⟩

/-- All that sending one frame does (R85 to R88). -/
theorem sendAnswer_eq (command : Byte) (payload : Word16) (s : State) :
    sendAnswer command payload s =
      { s with txlog := s.txlog ++ (buildCommand command payload).toList, response := some .ok } := rfl

/-- All that sending one frame and draining does (R84). -/
theorem sendDrainAnswer_eq (command : Byte) (payload : Word16) (s : State) :
    sendDrainAnswer command payload s =
      { s with
        txlog := s.txlog ++ (buildCommand command payload).toList
        rxq := [], arrivals := s.arrivals.tail, response := some .ok } := by
  unfold sendDrainAnswer
  rw [envMove_eq, envMove_arrivals]
  rfl

/-- All that frame.command does: build_command's answer or ILLEGAL_OP (R46, R81). -/
theorem execFrameCommand_cases (command : Byte) (payload checksum : Word16) (s : State) :
    (checksum = commandChecksum command payload ∧
      execFrameCommand command payload checksum s = .next (respond (.okFrame (buildCommand command payload)) s)) ∨
    (checksum ≠ commandChecksum command payload ∧
      execFrameCommand command payload checksum s = .next (respond .illegalOp s)) := by
  unfold execFrameCommand
  split
  · exact .inl ⟨‹_›, rfl⟩
  · exact .inr ⟨‹_›, rfl⟩

/-- Sending one of the five frames keeps TXLOG a sequence of them (R37, R46). -/
theorem TxFramed.append {log : List Byte} (h : TxFramed log) {f : CommandFrame} (hf : f ∈ transmittedFrames) :
    TxFramed (log ++ f.toList) := by
  obtain ⟨fs, hm, rfl⟩ := h
  refine ⟨fs ++ [f], ?_, by simp⟩
  simp only [List.mem_append, List.mem_singleton]
  rintro g (hg | rfl)
  · exact hm g hg
  · exact hf

/-! ## The fields of a host operation word (R51) -/

theorem hostWord_fields (op idx : BitVec 4) (cmd : Byte) (payload : Word16) :
    (hostWord op idx cmd payload).extractLsb' 28 4 = op ∧ (hostWord op idx cmd payload).extractLsb' 24 4 = idx ∧
    (hostWord op idx cmd payload).extractLsb' 16 8 = cmd ∧
    (hostWord op idx cmd payload).extractLsb' 0 16 = payload := by
  have key : (op ++ idx ++ cmd ++ payload).extractLsb' 28 4 = op ∧
      (op ++ idx ++ cmd ++ payload).extractLsb' 24 4 = idx ∧
      (op ++ idx ++ cmd ++ payload).extractLsb' 16 8 = cmd ∧
      (op ++ idx ++ cmd ++ payload).extractLsb' 0 16 = payload := by
    refine ⟨?_, ?_, ?_, ?_⟩ <;>
    · apply BitVec.eq_of_getLsbD_eq
      intro i hi
      simp only [BitVec.getLsbD_extractLsb', BitVec.getLsbD_append, hi, decide_true, Bool.true_and]
      (repeat' split) <;> first | omega | (congr 1; omega)
  exact key

end Sys2Proof.Machine
end

