-- ==== Sys2Proof/Laws/PerInstr.lean ====
section
/-!
SUPPORT. Statements for all instructions, one lemma per constructor.
-/

namespace Sys2Proof.Laws.EncodedForm

/-- The encoding of an instruction has the format of its row in the opcode table. -/
def Statement (i : Instr) : Prop := (encode i).format = i.format

theorem buildCommand (cmd : Byte) (payload : Word16) : Statement (.buildCommand cmd payload) := rfl

theorem setPassive : Statement .setPassive := rfl

theorem setActive : Statement .setActive := rfl

theorem sleep : Statement .sleep := rfl

theorem wake : Statement .wake := rfl

theorem requestRead : Statement .requestRead := rfl

theorem readFrame : Statement .readFrame := rfl

theorem getReading : Statement .getReading := rfl

theorem getField (idx : BitVec 4) : Statement (.getField idx) := rfl

theorem frameCommand (command : Byte) (payload : Word16) (checksum : Word16) : Statement (.frameCommand command payload checksum) := rfl

theorem frameSetPassive : Statement .frameSetPassive := rfl

theorem frameSetActive : Statement .frameSetActive := rfl

theorem frameRequestRead : Statement .frameRequestRead := rfl

theorem frameSleep : Statement .frameSleep := rfl

theorem frameWake : Statement .frameWake := rfl

theorem frameData (length : Word16) (fields : Reading) (checksumHi : Byte) (checksumLo : Byte) : Statement (.frameData length fields checksumHi checksumLo) := rfl

end Sys2Proof.Laws.EncodedForm
end

