-- ==== Sys2Proof/Machine/Text.lean ====
section
/-!
DEFINITION. The textual form of a host operation (R58): the source's call syntax. It has no effect on the machine.
-/

namespace Sys2Proof.Machine

/-- A hexadecimal digit. -/
def hexDigit (n : Nat) : String :=
  match n with
  | 0 => "0" | 1 => "1" | 2 => "2" | 3 => "3" | 4 => "4" | 5 => "5" | 6 => "6" | 7 => "7"
  | 8 => "8" | 9 => "9" | 10 => "A" | 11 => "B" | 12 => "C" | 13 => "D" | 14 => "E" | _ => "F"

/-- A byte as two hexadecimal digits. -/
def hexByte (b : Byte) : String := hexDigit (b.toNat / 16) ++ hexDigit (b.toNat % 16)

/-- The call that issues an operation (R58); a frame is no host operation and has none. A register that does not exist is
written by its number. -/
def callText : Instr → Option String
  | .buildCommand cmd payload =>
    some ("build_command(0x" ++ hexByte cmd ++ ", 0x" ++ hexByte (hiByte payload) ++ hexByte (loByte payload) ++ ")")
  | .setPassive => some "set_passive()"
  | .setActive => some "set_active()"
  | .sleep => some "sleep()"
  | .wake => some "wake()"
  | .requestRead => some "request_read()"
  | .readFrame => some "read_frame()"
  | .getReading => some "get_reading()"
  | .getField idx =>
    match fieldName idx with
    | some n => some ("get_field(" ++ n ++ ")")
    | none => some ("get_field(0x" ++ hexDigit idx.toNat ++ ")")
  | .frameCommand _ _ _ => none
  | .frameSetPassive => none
  | .frameSetActive => none
  | .frameRequestRead => none
  | .frameSleep => none
  | .frameWake => none
  | .frameData _ _ _ _ => none

end Sys2Proof.Machine
end

