-- ==== Sys2Proof/Tests/Slice0.lean ====
section
/-!
SUPPORT. The model's own tests: well-formedness, decoding of words written out from the spec's encodings, single operations
against the vectors of 95_test_vectors.md, and a witness for the hypotheses of every obligation.
-/

namespace Sys2Proof.Tests

open Sys2Proof Sys2Proof.Machine

set_option maxRecDepth 4000

/-! ## Helpers -/

/-- Frame A of 95_test_vectors.md. -/
def frameA : DataFrame := #v[0x42, 0x4D, 0x00, 0x1C, 0x00, 0x05, 0x00, 0x08, 0x00, 0x0A, 0x00, 0x05, 0x00, 0x08, 0x00, 0x0A,
  0x03, 0x84, 0x01, 0x04, 0x00, 0x28, 0x00, 0x06, 0x00, 0x02, 0x00, 0x01, 0x97, 0x00, 0x02, 0x2D]

/-- The fields of frame A, as 95_test_vectors.md lists them. -/
def readingA : Reading := ⟨5, 8, 10, 5, 8, 10, 900, 260, 40, 6, 2, 1, 0x97, 0⟩

/-- Frame B of 95_test_vectors.md. -/
def frameB : DataFrame := #v[0x42, 0x4D, 0x00, 0x1C, 0x12, 0x34, 0xFF, 0xFF, 0x00, 0x00, 0x80, 0x00, 0x00, 0xFF, 0xFF, 0x00,
  0x00, 0x01, 0x00, 0x02, 0x00, 0x03, 0x00, 0x04, 0x00, 0x05, 0xAB, 0xCD, 0x80, 0x00, 0x07, 0x74]

/-- An instance with scan bound `n` and mode `m`, RXQ holding `q`, the environment about to append `a`. -/
def fresh (n : Nat) (m : Mode) (q : List Byte) (a : List (List Byte)) : State :=
  State.resetWith ⟨n, m, 0, 0, 0⟩ q a

/-- What a test looks at after one operation. -/
def seen (o : Host.Outcome State Fault Refusal) : Option (Option Response × List Byte × List Byte × Nat) :=
  match o with
  | .next s => some (s.response, s.rxq, s.txlog, s.iter)
  | _ => none

/-! ## Well-formedness: each check refuses an ill-formed term -/

theorem test_wf_field_13 : (Instr.getField 13).wellFormed = true := by decide
theorem test_illformed_field_14 : (Instr.getField 14).wellFormed = false := by decide
theorem test_illformed_checksum : (Instr.frameCommand 0xE1 0xABCD 0x02E9).wellFormed = false := by decide
theorem test_illformed_fixed_frame : (Instr.frameCommand 0xE1 0x0000 0x0170).wellFormed = false := by decide

/-! ## Decoding: words written out from R51, R52 and the programs P1 to P4; frames from R47 and vectors V6, A -/

theorem test_decode_build_command : decodeTableWord 32 0x10E1ABCD = some (.buildCommand 0xE1 0xABCD) := by decide
theorem test_decode_set_passive : decodeTableWord 32 0x20000000 = some .setPassive := by decide
theorem test_decode_set_active : decodeTableWord 32 0x30000000 = some .setActive := by decide
theorem test_decode_sleep : decodeTableWord 32 0x40000000 = some .sleep := by decide
theorem test_decode_wake : decodeTableWord 32 0x50000000 = some .wake := by decide
theorem test_decode_request_read : decodeTableWord 32 0x60000000 = some .requestRead := by decide
theorem test_decode_read_frame_ignores : decodeTableWord 32 0x7FFFFFFF = some .readFrame := by decide
theorem test_decode_get_reading : decodeTableWord 32 0x80000000 = some .getReading := by decide
theorem test_decode_get_field : decodeTableWord 32 0x91000000 = some (.getField 1) := by decide
theorem test_decode_reserved : decode (.hostWord 0xA0000000) = .error (.reservedOp 0xA) := by rfl
theorem test_decode_frame_command :
    decodeTableWord 56 0x424DE1ABCD02E8 = some (.frameCommand 0xE1 0xABCD 0x02E8) := by decide
theorem test_decode_frame_set_passive : decodeTableWord 56 0x424DE100000170 = some .frameSetPassive := by decide
theorem test_decode_frame_set_active : decodeTableWord 56 0x424DE100010171 = some .frameSetActive := by decide
theorem test_decode_frame_request_read : decodeTableWord 56 0x424DE200000171 = some .frameRequestRead := by decide
theorem test_decode_frame_sleep : decodeTableWord 56 0x424DE400000173 = some .frameSleep := by decide
theorem test_decode_frame_wake : decodeTableWord 56 0x424DE400010174 = some .frameWake := by decide
theorem test_decode_frame_data :
    decodeTableWord 256 0x424D001C00050008000A00050008000A0384010400280006000200019700022D =
      some (.frameData 0x001C readingA 0x02 0x2D) := by decide
theorem test_decode_no_marker : decodeTableWord 56 0x434DE400010174 = none := by decide

/-! ## Operations, one step each (95_test_vectors.md) -/

/-- S1 -/
theorem test_build_command : buildCommand 0xE1 0x0000 = #v[0x42, 0x4D, 0xE1, 0x00, 0x00, 0x01, 0x70] := by decide
/-- V5 -/
theorem test_build_command_max : buildCommand 0xFF 0xFFFF = #v[0x42, 0x4D, 0xFF, 0xFF, 0xFF, 0x03, 0x8C] := by decide
/-- V7 -/
theorem test_set_passive : seen (exec .setPassive (fresh 10 .active [0x42, 0x4D, 0x00, 0x1C, 0x00, 0x05] [])) =
    some (some .ok, [], [0x42, 0x4D, 0xE1, 0x00, 0x00, 0x01, 0x70], 0) := by decide
/-- V8 -/
theorem test_set_active_keeps_rxq : seen (exec .setActive (fresh 10 .passive [0x42, 0x4D, 0x00] [])) =
    some (some .ok, [0x42, 0x4D, 0x00], [0x42, 0x4D, 0xE1, 0x00, 0x01, 0x01, 0x71], 0) := by decide
/-- V9 -/
theorem test_sleep : seen (exec .sleep (fresh 10 .passive [] [])) =
    some (some .ok, [], [0x42, 0x4D, 0xE4, 0x00, 0x00, 0x01, 0x73], 0) := by decide
/-- V9 -/
theorem test_wake : seen (exec .wake (fresh 10 .passive [] [])) =
    some (some .ok, [], [0x42, 0x4D, 0xE4, 0x00, 0x01, 0x01, 0x74], 0) := by decide
/-- V9, in active mode (R88) -/
theorem test_request_read : seen (exec .requestRead (fresh 10 .active [] [])) =
    some (some .ok, [], [0x42, 0x4D, 0xE2, 0x00, 0x00, 0x01, 0x71], 0) := by decide
/-- V24: no-data events mid-scan, and the byte after the frame is left. -/
theorem test_read_frame_gaps :
    seen (exec .readFrame (fresh 10 .active [] [[], [0x11], [], frameA.toList ++ [0x99]])) =
      some (some (.okReading readingA), [0x99], [], 5) := by decide
/-- V19: the checksum is tested before the error code. -/
theorem test_read_frame_checksum_first :
    seen (exec .readFrame (fresh 10 .active (frameA.toList.take 29 ++ [0x04, 0x02, 0x30]) [])) =
      some (some (.error (.checksumMismatch 0x0230 0x31)), [], [], 2) := by decide
/-- V32a -/
theorem test_get_reading_passive : seen (exec .getReading (fresh 4 .passive frameA.toList [])) =
    some (some (.okReading readingA), [], [0x42, 0x4D, 0xE2, 0x00, 0x00, 0x01, 0x71], 2) := by decide
/-- V32c -/
theorem test_get_reading_silent : seen (exec .getReading (fresh 4 .passive [] [])) =
    some (some (.error .noStart), [], [0x42, 0x4D, 0xE2, 0x00, 0x00, 0x01, 0x71], 4) := by decide
/-- V31b -/
theorem test_get_field : seen (exec (.getField 6) { fresh 10 .active [] [] with reading := some readingA }) =
    some (some (.present (.word 900)), [], [], 0) := by decide
/-- V31a -/
theorem test_get_field_absent : seen (exec (.getField 4) (fresh 10 .active [] [])) =
    some (some .absent, [], [], 0) := by decide
/-- V33: the cache is kept. -/
theorem test_illegal_op_keeps_reading :
    step { fresh 10 .active [] [] with reading := some readingA, inputs := [.transfer (.hostWord 0x9E000000)] } =
      .next { fresh 10 .active [] [] with reading := some readingA, response := some .illegalOp } := by rfl
/-- V6 by its frame: built, not sent. -/
theorem test_frame_command : seen (exec (.frameCommand 0xE1 0xABCD 0x02E8) (fresh 10 .active [] [])) =
    some (some (.okFrame #v[0x42, 0x4D, 0xE1, 0xAB, 0xCD, 0x02, 0xE8]), [], [], 0) := by decide
/-- The checksum of 90_conflicts.md C1's first losing reading, 03 6E, makes no command frame. -/
theorem test_frame_command_checksum : seen (exec (.frameCommand 0xE1 0x0000 0x036E) (fresh 10 .active [] [])) =
    some (some .illegalOp, [], [], 0) := by decide
/-- V7 by its frame -/
theorem test_frame_set_passive : seen (exec .frameSetPassive (fresh 10 .active [0x42, 0x4D, 0x00, 0x1C, 0x00, 0x05] [])) =
    some (some .ok, [], [0x42, 0x4D, 0xE1, 0x00, 0x00, 0x01, 0x70], 0) := by decide
/-- A frame received is only buffered (R33). -/
theorem test_frame_data : seen (exec (.frameData 0x001C readingA 0x02 0x2D) (fresh 10 .active [0x11] [])) =
    some (none, 0x11 :: frameA.toList, [], 0) := by decide
/-- P1, step 6 -/
theorem test_call_text : callText (.getField 4) = some "get_field(pm2_5)" := by decide
/-- P4, step 4 -/
theorem test_call_text_build : callText (.buildCommand 0xE1 0x0000) = some "build_command(0xE1, 0x0000)" := by decide
/-- Every row runs as the first instruction after reset, here read_frame. -/
theorem test_runs_after_reset : (seen (step (State.reset.withFetchWord 32 0x70000000))).isSome = true := by decide

/-! ## Witnesses: every hypothesis of an obligation is met by something -/

/-- A state with frame A buffered, in active mode. -/
def sA : State := fresh 2 .active frameA.toList []
/-- The same in passive mode. -/
def sP : State := fresh 2 .passive frameA.toList []

theorem goodA : GoodFrame frameA := by decide
theorem goodB : GoodFrame frameB := by decide

theorem candidateA (m : Mode) : Candidate (fresh 2 m frameA.toList []) 2 frameA [] := by
  cases m <;> exact ⟨by decide, by decide, by decide⟩

theorem witness_DecodeOfEncode : (Instr.frameCommand 0xE1 0xABCD 0x02E8).wellFormed = true ∧
    (Instr.getField 13).wellFormed = true := by decide

theorem witness_DecodedFrameEncodesBack :
    decode (.commandFrame #v[0x42, 0x4D, 0xE1, 0x00, 0x00, 0x01, 0x70]) = .ok .frameSetPassive ∧
    decode (.dataFrame frameA) = .ok (.frameData 0x001C readingA 0x02 0x2D) := ⟨rfl, rfl⟩

theorem witness_ReservedOperation (w : BitVec 32) (h : w = 0x0FFFFFFF ∨ w = 0xA0000000 ∨ w = 0xF0000000) :
    { sA with inputs := [.transfer (.hostWord w)] }.inputs = [.transfer (.hostWord w)] ∧
    (w.toNat / 2 ^ 28 = 0 ∨ 10 ≤ w.toNat / 2 ^ 28) := by
  rcases h with rfl | rfl | rfl <;> decide

theorem witness_StepRuns : { sA with inputs := [.transfer (encode .wake)] }.inputs = [.transfer (encode .wake)] ∧
    decode (encode .wake) = .ok .wake := ⟨rfl, rfl⟩

theorem witness_StepTakesIdle : sA.inputs = [] := rfl
theorem witness_StepTakesByte : { sA with inputs := [.rxByte 0x42] }.inputs = [.rxByte 0x42] := rfl
theorem witness_StepTakesNoise : { sA with inputs := [.transfer (.dataFrame (frameA.set 1 0x42))] }.inputs =
    [.transfer (.dataFrame (frameA.set 1 0x42))] ∧ ¬ HasMarker (frameA.set 1 0x42) := by decide
theorem witness_StepNoCommandFrame : ∃ f : CommandFrame, { sA with inputs := [.transfer (.commandFrame f)] }.inputs =
    [.transfer (.commandFrame f)] ∧ ¬ (f[0] = 0x42 ∧ f[1] = 0x4D) :=
  ⟨#v[0x42, 0x00, 0, 0, 0, 0, 0], by decide⟩

theorem witness_Reset : { sA with inputs := [.reset] }.inputs = [.reset] := rfl

/-- A state that has read frame A and sent a command, about to be reset, to step, to read. -/
def sInv (inputs : List Input) : State :=
  { sA with reading := some readingA, frame := frameA, rxq := [], iter := 2, lb := some 0x42
            txlog := (buildCommand 0xE4 0x0001).toList, response := some (.okReading readingA), inputs := inputs }

theorem sInv_inv (inputs : List Input) : Inv (sInv inputs) where
  phase_idle := rfl
  mode_init := rfl
  iter_bound := Nat.le_refl 2
  reading_good := fun r h => by
    have hr : readingA = r := Option.some.inj h
    subst hr
    exact ⟨goodA, by show readingA = decodeReading frameA; decide⟩
  tx_framed := ⟨[buildCommand 0xE4 0x0001], by simp; decide, by simp [sInv]⟩
  response_agrees := rfl

theorem witness_EveryStepKeepsTheInvariant : Inv (sInv [.reset]) ∧ ∃ t, step (sInv [.reset]) = .next t :=
  ⟨sInv_inv _, _, rfl⟩
theorem witness_ErrorCodeField : Inv (sInv []) := sInv_inv _

theorem witness_EncoderIgnores : sP.mode = .passive ∧
    ∃ t u, exec .setActive sP = .next t ∧ exec .getReading t = .next u := ⟨rfl, _, _, rfl, rfl⟩
theorem witness_Composite (c : Byte) (p : Word16) : ∃ t f, exec (.buildCommand c p) sP = .next t ∧
    t.response = some (.okFrame f) := ⟨_, _, rfl, rfl⟩
theorem witness_CompositeReads : (∃ u, exec .requestRead sP = .next u) ∧ sP.mode = .passive ∧ sA.mode = .active :=
  ⟨⟨_, rfl⟩, rfl, rfl⟩
/-- V6, and the same with its checksum one off. -/
theorem witness_CommandFrames :
    decode (.commandFrame #v[0x42, 0x4D, 0xE1, 0xAB, 0xCD, 0x02, 0xE8]) = .ok (.frameCommand 0xE1 0xABCD 0x02E8) ∧
    decode (.commandFrame #v[0x42, 0x4D, 0xE1, 0xAB, 0xCD, 0x02, 0xE9]) = .ok (.frameCommand 0xE1 0xABCD 0x02E9) :=
  ⟨rfl, rfl⟩
/-- Two machines that differ in the response port and the inputs alone. -/
theorem witness_Block : sA ≠ { sA with response := some .ok, inputs := [.reset] } ∧
    sA.toBlock = { sA with response := some .ok, inputs := [.reset] }.toBlock ∧
    sA.params = { sA with response := some .ok, inputs := [.reset] }.params ∧
    sA.arrivals = { sA with response := some .ok, inputs := [.reset] }.arrivals := by decide

theorem witness_ScanMatch : (envMove { fresh 2 .active [0x4D] [] with lb := some 0x42 }).rxq = [0x4D] ∧
    { fresh 2 .active [0x4D] [] with lb := some 0x42 }.lb = some 0x42 := by decide
/-- A held 0x42 and a mismatching 0x42, and a 0x4D with nothing held. -/
theorem witness_ScanMismatch : (envMove (fresh 2 .active [0x4D] [])).rxq = [0x4D] ∧
    (fresh 2 .active [0x4D] []).lb ≠ some 0x42 ∧ (0x42 : Byte) ≠ 0x4D := by decide
theorem witness_ScanNoData : (envMove (fresh 2 .active [] [[]])).rxq = [] := by decide

/-- The two clauses: a silent line at bound 5, and bound 1 with a whole frame buffered. -/
theorem witness_NoStart : NoMarker (rxEvents 5 (fresh 5 .active [] [])) ∧
    (fresh 1 .active frameA.toList []).params.maxScanIter < 2 := by decide

/-- Nothing, and twenty-nine bytes, after the marker (V28a, V28c). -/
theorem witness_ShortFrame (n : Nat) (h : n = 2 ∨ n = 31) :
    FirstMarker (rxEvents 2 (fresh 2 .active (frameA.toList.take n) [])) 2 ∧
    (envMove (afterPulls 2 (fresh 2 .active (frameA.toList.take n) []))).rxq.length < 30 := by
  rcases h with rfl | rfl <;> decide

theorem witness_Candidate : Candidate sA 2 frameA [] ∧ Candidate sP 2 frameA [] := ⟨candidateA _, candidateA _⟩
theorem witness_GetReadingCommits : Candidate sP 2 frameA [] ∧ GoodFrame frameA ∧ sP.mode = .passive ∧
    sA.mode = .active := ⟨candidateA _, goodA, rfl, rfl⟩

/-- The frames of V13, V18 and V17, one for each clause. -/
theorem witness_CandidateClauses :
    (let z : DataFrame := ((Vector.replicate 32 0).set 0 0x42 |>.set 1 0x4D).set 31 0x8F
     Candidate (fresh 2 .active z.toList []) 2 z [] ∧ SumPasses z ∧ ZeroRegion z) ∧
    (let e : DataFrame := (frameA.set 29 0x04).set 31 0x31
     Candidate (fresh 2 .active e.toList []) 2 e [] ∧ SumPasses e ∧ ¬ ZeroRegion e ∧ e[29] ≠ 0) ∧
    (let c : DataFrame := frameA.set 31 0x2E
     Candidate (fresh 2 .active c.toList []) 2 c [] ∧ ¬ SumPasses c) :=
  ⟨⟨⟨by decide, by decide, by decide⟩, by decide, by decide⟩,
   ⟨⟨by decide, by decide, by decide⟩, by decide, by decide, by decide⟩,
   ⟨⟨by decide, by decide, by decide⟩, by decide⟩⟩

/-- The first and the last 16-bit register. -/
theorem witness_Fields (i : Nat) (h : i = 0 ∨ i = 11) : i < 12 := by omega

/-- Noise that ends in a lone 0x42, with the bound met exactly. -/
theorem witness_Noise : ∃ s : State, s.rxq = [0x00, 0x4D, 0x42] ++ frameA.toList ++ [0x99] ∧ GoodFrame frameA ∧
    (∀ k : Nat, ¬ (([0x00, 0x4D, 0x42] : List Byte)[k]? = some 0x42 ∧
      ([0x00, 0x4D, 0x42] : List Byte)[k + 1]? = some 0x4D)) ∧
    ([0x00, 0x4D, 0x42] : List Byte).length + 2 ≤ s.params.maxScanIter := by
  refine ⟨fresh 5 .active ([0x00, 0x4D, 0x42] ++ frameA.toList ++ [0x99]) [], rfl, goodA, ?_, by decide⟩
  rintro (_ | _ | _ | k) <;> simp

theorem witness_Silence : ∃ s : State, s.rxq = [] ∧
    s.arrivals = List.replicate 3 [] ++ (frameA.toList ++ []) :: [] ∧ GoodFrame frameA ∧ 3 + 2 ≤ s.params.maxScanIter :=
  ⟨fresh 5 .active [] [[], [], [], frameA.toList], rfl, by decide, goodA, by decide⟩

theorem witness_ReadFrameNext : ∃ t, exec .readFrame sA = .next t ∧ t.response = some (.okReading readingA) :=
  ⟨_, rfl, by decide⟩

theorem witness_WeakCheck : frameA ≠ (frameA.set 4 0x05).set 5 0x00 ∧ frameA[31] = ((frameA.set 4 0x05).set 5 0x00)[31] ∧
    (frameA.toList.take 30).Perm (((frameA.set 4 0x05).set 5 0x00).toList.take 30) ∧
    ((frameA.toList.take 30).map BitVec.toNat).sum % 256 =
      ((((frameA.set 4 0x05).set 5 0x00).toList.take 30).map BitVec.toNat).sum % 256 := by decide

theorem witness_Oldest : (fresh 2 .active (frameA.toList ++ (frameB.toList ++ [])) []).rxq =
      frameA.toList ++ (frameB.toList ++ []) ∧ (fresh 2 .active (frameA.toList ++ frameB.toList) []).arrivals = [] ∧
    GoodFrame frameA ∧ GoodFrame frameB ∧ 2 ≤ (fresh 2 .active frameA.toList []).params.maxScanIter :=
  ⟨rfl, rfl, goodA, goodB, by decide⟩

theorem witness_PhaseMachine : sA.params.maxScanIter + 2 ≤ 4 := by decide

theorem witness_FailingRead : ∃ t, exec .getReading { fresh 1 .active [] [] with reading := some readingA } = .next t ∧
    t.response = some (.error .noStart) := ⟨_, rfl, by decide⟩
theorem witness_OnlyTheReadsRaise : Instr.readFrame.format ≠ .data32 ∧ ∃ t, exec .readFrame (fresh 1 .active [] []) =
    .next t ∧ t.response = some (.error .noStart) := ⟨by decide, _, rfl, by decide⟩

theorem witness_GetReadingModes : sP.mode = .passive ∧ sA.mode = .active ∧
    (∃ t, exec .getReading sP = .next t) ∧ ∃ t, exec .getReading sA = .next t := ⟨rfl, rfl, ⟨_, rfl⟩, _, rfl⟩

theorem witness_GetField : { sA with reading := some readingA }.reading = some readingA := rfl
theorem witness_GetFieldAbsent : sA.reading = none ∧ (13 : BitVec 4).toNat < 14 := by decide
theorem witness_GetFieldIllegal : 14 ≤ (14 : BitVec 4).toNat ∧ 14 ≤ (15 : BitVec 4).toNat := by decide

theorem witness_WireData : decode (.dataFrame frameA) = .ok (.frameData 0x001C readingA 0x02 0x2D) := rfl
theorem witness_Fifo : Instr.setPassive.format ≠ .data32 ∧ ∃ t, exec .setPassive sA = .next t := ⟨by decide, _, rfl⟩
theorem witness_TransmitLog : (∃ t, exec .frameWake sA = .next t) ∧ Transmits .frameWake sA.mode ∧
    Transmits .getReading sP.mode ∧ ¬ Transmits .getReading sA.mode ∧ ∃ t, exec .getReading sA = .next t := by
  refine ⟨⟨_, rfl⟩, ?_, ?_, ?_, ⟨_, rfl⟩⟩ <;> decide
theorem witness_RestAlone : Instr.wake ≠ .readFrame ∧ Instr.wake ≠ .getReading ∧ Instr.wake ≠ .setPassive ∧
    Instr.wake ≠ .frameSetPassive ∧ Instr.wake.format ≠ .data32 := by decide
theorem witness_ModeFixed : (∃ t, step { sA with inputs := [.rxByte 0] } = .next t) ∧
    ∀ rest, { sA with inputs := [.rxByte 0] }.inputs ≠ .reset :: rest := ⟨⟨_, rfl⟩, by simp⟩
theorem witness_EveryHostOperation : (Instr.getField 15).format = .hostOp := rfl

end Sys2Proof.Tests
end

/-!
The scope of the block (spec 00_scope.md): what a step runs, the codes of the responses, and that nothing but the block,
the parameters and the environment decides what an instruction does.
-/

namespace Sys2Proof.Machine

/-! ## The step (R42) -/

/-- Settles O6: the step's own case of a transfer that decodes. -/
theorem stepRunsTheDecodedInstruction : Obligations.StepRunsTheDecodedInstruction := by
  intro s t i rest hin hdec
  simp only [step, hin, hdec]

/-! ## The codes of the responses (R107) -/

/-- Settles O38: each row of the table is a case of `kindCode` and `causeCode`. -/
theorem responseCodesAreThoseOfTheTable : Obligations.ResponseCodesAreThoseOfTheTable :=
  ⟨fun _ _ _ => rfl, rfl, fun _ => rfl, fun _ _ => rfl, rfl, fun _ => rfl, rfl⟩

/-! ## The host's side of the machine (R13, R60)

The response port and the pending inputs are the host's. The state with other contents there is `s.withHost r l`; each
operation of the block commutes with that change, and one that ends with a response overwrites the port. -/

/-- `s` with the response port `r` and the pending inputs `l`. -/
def State.withHost (s : State) (r : Option Response) (l : List Input) : State := { s with response := r, inputs := l }

/-- States that agree on the block, the parameters and the schedule differ on the host's side alone. -/
theorem eq_withHost {s t : State} (hb : s.toBlock = t.toBlock) (hp : s.params = t.params)
    (ha : s.arrivals = t.arrivals) : t = s.withHost t.response t.inputs := by
  cases s
  cases t
  cases hb
  cases hp
  cases ha
  rfl

section
variable (s : State) (r : Option Response) (l : List Input)

@[simp] theorem withHost_toBlock : (s.withHost r l).toBlock = s.toBlock := rfl
@[simp] theorem withHost_params : (s.withHost r l).params = s.params := rfl

theorem sendDrainAnswer_withHost (command : Byte) (payload : Word16) :
    sendDrainAnswer command payload (s.withHost r l) = { sendDrainAnswer command payload s with inputs := l } := by
  rw [sendDrainAnswer_eq, sendDrainAnswer_eq]
  rfl

theorem requestIfPassive_withHost : requestIfPassive (s.withHost r l) = (requestIfPassive s).withHost r l := by
  simp only [requestIfPassive, withHost_toBlock]
  cases s.mode <;> rfl

end

/-! ## read_frame depends on RXQ, the schedule and the bound (R64, R69) -/

theorem Candidate.congr {s t : State} {j : Nat} {f : DataFrame} {rest : List Byte} (c : Candidate s j f rest)
    (hr : s.rxq = t.rxq) (ha : s.arrivals = t.arrivals) (hp : s.params = t.params) : Candidate t j f rest := by
  have hpulls := afterPulls_congr j hr ha
  exact ⟨by rw [← rxEvents_congr _ hr ha, ← hp]; exact c.found, c.marker,
    by rw [← envMove_rxq_congr hpulls.1 hpulls.2]; exact c.remainder⟩

/-- Whichever check decides, its answer overwrites the response port. -/
theorem checkFrame_withHost (s : State) (r : Option Response) (l : List Input) :
    checkFrame (s.withHost r l) = { checkFrame s with inputs := l } := by
  have hframe : (s.withHost r l).frame = s.frame := rfl
  rw [checkFrame, checkFrame, hframe]
  split_ifs <;> rfl

/-- read_frame sees the same events from both states, so its scan and its payload read end the same way. -/
theorem readFrame_withHost (s : State) (r : Option Response) (l : List Input) :
    readFrame (s.withHost r l) = { readFrame s with inputs := l } := by
  have hev (n : Nat) : rxEvents n (s.withHost r l) = rxEvents n s := rxEvents_congr n rfl rfl
  have hpulls (j : Nat) := afterPulls_congr j (s := s.withHost r l) (t := s) rfl rfl
  have hrxq (j : Nat) := (hpulls j).1
  have harr (j : Nat) := (hpulls j).2
  obtain hnone | ⟨j, hfirst, hshort | ⟨f, rest, c⟩⟩ := readFrame_inputs s
  · rw [readFrame_noMarker hnone, readFrame_noMarker (by rwa [hev])]
    simp only [withHost_params, hev, hrxq, harr]
    rfl
  · have hq := envMove_rxq_congr (hrxq j) (harr j)
    rw [readFrame_firstMarker_short hfirst hshort, readFrame_firstMarker_short (by rwa [hev]) (by rwa [hq]), hq,
      envMove_arrivals_congr (harr j)]
    rfl
  · have c' : Candidate (s.withHost r l) j f rest := c.congr rfl rfl rfl
    rw [readFrame_candidate c, readFrame_candidate c', ← checkFrame_withHost _ r]
    simp only [afterCandidate, envMove_arrivals_congr (harr j)]
    rfl

/-! ## Every instruction -/

/-- get_field looks at the Reading alone (R95 to R97). -/
theorem execGetField_withHost (idx : BitVec 4) (s : State) (r : Option Response) (l : List Input) :
    ∃ t, execGetField idx s = .next t ∧ execGetField idx (s.withHost r l) = .next { t with inputs := l } := by
  simp only [execGetField, withHost_toBlock]
  split_ifs
  · exact ⟨_, rfl, rfl⟩
  · cases s.reading with
    | none => exact ⟨_, rfl, rfl⟩
    | some x =>
      dsimp only
      split <;> exact ⟨_, rfl, rfl⟩

/-- An instruction that answers ends in the same state, the pending inputs apart, whatever the host's side held. -/
theorem exec_withHost {i : Instr} (hi : i.format ≠ .data32) (s : State) (r : Option Response) (l : List Input) :
    ∃ t, exec i s = .next t ∧ exec i (s.withHost r l) = .next { t with inputs := l } := by
  have hdrain := sendDrainAnswer_withHost s r l Config.cmdMode Config.payloadPassive
  cases i with
  | buildCommand cmd payload => exact ⟨_, rfl, rfl⟩
  | setPassive => exact ⟨_, rfl, congrArg _ hdrain⟩
  | setActive => exact ⟨_, rfl, rfl⟩
  | sleep => exact ⟨_, rfl, rfl⟩
  | wake => exact ⟨_, rfl, rfl⟩
  | requestRead => exact ⟨_, rfl, rfl⟩
  | readFrame => exact ⟨_, rfl, congrArg _ (readFrame_withHost s r l)⟩
  | getReading =>
    refine ⟨_, rfl, congrArg Host.Outcome.next ?_⟩
    rw [requestIfPassive_withHost, readFrame_withHost]
  | getField idx => exact execGetField_withHost idx s r l
  | frameCommand command payload checksum =>
    simp only [exec, execFrameCommand]
    split_ifs <;> exact ⟨_, rfl, rfl⟩
  | frameSetPassive => exact ⟨_, rfl, congrArg _ hdrain⟩
  | frameSetActive => exact ⟨_, rfl, rfl⟩
  | frameRequestRead => exact ⟨_, rfl, rfl⟩
  | frameSleep => exact ⟨_, rfl, rfl⟩
  | frameWake => exact ⟨_, rfl, rfl⟩
  | frameData length fields checksumHi checksumLo => exact absurd rfl hi

/-- A received data frame leaves the host's side as it is. -/
theorem exec_withHost_of_data32 {i : Instr} (hi : i.format = .data32) (s : State) (r : Option Response)
    (l : List Input) : ∃ t, exec i s = .next t ∧ exec i (s.withHost r l) = .next (t.withHost r l) := by
  cases i with
  | frameData length fields checksumHi checksumLo => exact ⟨_, rfl, rfl⟩
  | _ => cases hi

/-- Settles O54: the second machine is the first with another host's side, which no instruction looks at. -/
theorem theBlockIsTheCompleteState : Obligations.TheBlockIsTheCompleteState := by
  intro i s s' hb hp ha
  rw [eq_withHost hb hp ha]
  by_cases hi : i.format = .data32
  · obtain ⟨t, ht, ht'⟩ := exec_withHost_of_data32 hi s s'.response s'.inputs
    exact ⟨t, _, ht, ht', rfl, rfl, fun h => absurd hi h⟩
  · obtain ⟨t, ht, ht'⟩ := exec_withHost hi s s'.response s'.inputs
    exact ⟨t, _, ht, ht', rfl, rfl, fun _ => rfl⟩

end Sys2Proof.Machine

/-!
The state of the block (spec 10_state.md): what one instruction and one step can do, the invariant that every step keeps,
and the life of a read_frame, whole and move by move.
-/

namespace Sys2Proof.Machine

/-! ## What an instruction can do (R26)

Said once for all instructions; the whole-machine statements are read off its cases. -/

/-- `t` is a state that `i` may leave of `s`. -/
inductive Effect (s : State) (i : Instr) : State → Prop where
  /-- It answers, in agreement with the Reading, and touches nothing else. -/
  | answers {r : Response} (hquiet : ¬ Transmits i s.mode) (hr : ResponseAgrees s.reading (some r)) :
      Effect s i (respond r s)
  /-- It sends a frame (R85 to R88). -/
  | sends {f : CommandFrame} (hsend : Transmits i s.mode) (hf : f ∈ transmittedFrames) :
      Effect s i (respond .ok (send f s))
  /-- It sends a frame and drains RXQ (R84). -/
  | sendsAndDrains {f : CommandFrame} (hsend : Transmits i s.mode) (hf : f ∈ transmittedFrames)
      (hi : i = .setPassive ∨ i = .frameSetPassive) : Effect s i (respond .ok (rxDrain (envMove (send f s))))
  /-- It reads a frame and sends nothing (R63, R93). -/
  | reads (hquiet : ¬ Transmits i s.mode) (hi : i = .readFrame ∨ i = .getReading) : Effect s i (readFrame s)
  /-- It sends a frame and reads one (R93). -/
  | sendsAndReads {f : CommandFrame} (hsend : Transmits i s.mode) (hf : f ∈ transmittedFrames)
      (hi : i = .getReading) : Effect s i (readFrame (send f s))
  /-- It is received (R33). -/
  | received {bs : List Byte} (hquiet : ¬ Transmits i s.mode) (hi : i.format = .data32) : Effect s i (receive bs s)

/-- get_field gives no register's value but that of the Reading (R95 to R97). -/
theorem execGetField_effect (idx : BitVec 4) (s : State) :
    ∃ t, execGetField idx s = .next t ∧ Effect s (.getField idx) t := by
  have hquiet : ¬ Transmits (.getField idx) s.mode := by simp
  obtain ⟨r, hr, rfl | ⟨rfl, habsent⟩ | ⟨v, x, rfl, hx, hv⟩⟩ := execGetField_cases idx s
  · exact ⟨_, hr, .answers hquiet trivial⟩
  · exact ⟨_, hr, .answers hquiet habsent⟩
  · exact ⟨_, hr, .answers hquiet ⟨x, idx, hx, hv⟩⟩

/-- get_reading is read_frame, with the read request before it in passive mode (R93). -/
theorem execGetReading_effect (s : State) : ∃ t, execGetReading s = .next t ∧ Effect s .getReading t := by
  refine ⟨_, rfl, ?_⟩
  unfold requestIfPassive
  cases hm : s.mode with
  | passive => exact .sendsAndReads (.inr ⟨rfl, hm⟩) (by decide) rfl
  | active => exact .reads (by simp [hm]) (.inr rfl)

/-- frame.command answers and does no more, whichever checksum it carries (R46, R81). -/
theorem execFrameCommand_effect (command : Byte) (payload checksum : Word16) (s : State) :
    ∃ t, execFrameCommand command payload checksum s = .next t ∧
      Effect s (.frameCommand command payload checksum) t := by
  have hquiet : ¬ Transmits (.frameCommand command payload checksum) s.mode := by simp
  obtain ⟨-, h⟩ | ⟨-, h⟩ := execFrameCommand_cases command payload checksum s
  · exact ⟨_, h, .answers hquiet trivial⟩
  · exact ⟨_, h, .answers hquiet trivial⟩

/-- Every instruction completes, with one of the effects. -/
theorem exec_effect (i : Instr) (s : State) : ∃ t, exec i s = .next t ∧ Effect s i t := by
  cases i with
  | buildCommand cmd payload => exact ⟨_, rfl, .answers (by simp) trivial⟩
  | setPassive => exact ⟨_, rfl, .sendsAndDrains (.inl (by simp)) (by decide) (.inl rfl)⟩
  | setActive => exact ⟨_, rfl, .sends (.inl (by simp)) (by decide)⟩
  | sleep => exact ⟨_, rfl, .sends (.inl (by simp)) (by decide)⟩
  | wake => exact ⟨_, rfl, .sends (.inl (by simp)) (by decide)⟩
  | requestRead => exact ⟨_, rfl, .sends (.inl (by simp)) (by decide)⟩
  | readFrame => exact ⟨_, rfl, .reads (by simp) (.inl rfl)⟩
  | getReading => exact execGetReading_effect s
  | getField idx => exact execGetField_effect idx s
  | frameCommand command payload checksum => exact execFrameCommand_effect command payload checksum s
  | frameSetPassive => exact ⟨_, rfl, .sendsAndDrains (.inl (by simp)) (by decide) (.inr rfl)⟩
  | frameSetActive => exact ⟨_, rfl, .sends (.inl (by simp)) (by decide)⟩
  | frameRequestRead => exact ⟨_, rfl, .sends (.inl (by simp)) (by decide)⟩
  | frameSleep => exact ⟨_, rfl, .sends (.inl (by simp)) (by decide)⟩
  | frameWake => exact ⟨_, rfl, .sends (.inl (by simp)) (by decide)⟩
  | frameData length fields checksumHi checksumLo => exact ⟨_, rfl, .received (by simp) rfl⟩

theorem Effect.of_exec {i : Instr} {s t : State} (h : exec i s = .next t) : Effect s i t := by
  obtain ⟨u, hu, he⟩ := exec_effect i s
  rw [hu] at h
  cases h
  exact he

/-- No instruction writes MODE, the parameters or the pending inputs (R17, R18). -/
theorem Effect.mode_params_inputs {i : Instr} {s t : State} (h : Effect s i t) :
    t.mode = s.mode ∧ t.params = s.params ∧ t.inputs = s.inputs := by
  cases h with
  | answers => simp
  | sends => simp
  | sendsAndDrains => simp
  | reads =>
    obtain ⟨hmode, hparams, -, hinputs, -⟩ := readFrame_frame s
    exact ⟨hmode, hparams, hinputs⟩
  | @sendsAndReads f =>
    obtain ⟨hmode, hparams, -, hinputs, -⟩ := readFrame_frame (send f s)
    exact ⟨hmode, hparams, hinputs⟩
  | received => simp

/-- Only the two reads write the Reading and the state of a read (R26). -/
theorem Effect.reading_scan_eq {i : Instr} {s t : State} (h : Effect s i t) (hr : i ≠ .readFrame)
    (hg : i ≠ .getReading) :
    t.reading = s.reading ∧ t.lb = s.lb ∧ t.iter = s.iter ∧ t.frame = s.frame ∧ t.phase = s.phase := by
  cases h with
  | answers => simp
  | sends => simp
  | sendsAndDrains => simp
  | reads _ hi => exact absurd hi (by simp [hr, hg])
  | sendsAndReads _ _ hi => exact absurd hi hg
  | received => simp

/-- Only the reads, the drain and the environment write RXQ, and with it the schedule (R26). -/
theorem Effect.rxq_arrivals_eq {i : Instr} {s t : State} (h : Effect s i t) (hd : i.format ≠ .data32)
    (hr : i ≠ .readFrame) (hg : i ≠ .getReading) (hp : i ≠ .setPassive) (hf : i ≠ .frameSetPassive) :
    t.rxq = s.rxq ∧ t.arrivals = s.arrivals := by
  cases h with
  | answers => simp
  | sends => simp
  | sendsAndDrains _ _ hi => exact absurd hi (by simp [hp, hf])
  | reads _ hi => exact absurd hi (by simp [hr, hg])
  | sendsAndReads _ _ hi => exact absurd hi hg
  | received _ hi => exact absurd hi hd

/-- Settles O51: each clause is a fact about the instruction's effect. -/
theorem instructionsLeaveTheRestAlone : Obligations.InstructionsLeaveTheRestAlone := by
  intro i s
  obtain ⟨t, ht, he⟩ := exec_effect i s
  obtain ⟨hmode, hparams, hinputs⟩ := he.mode_params_inputs
  exact ⟨t, ht, hmode, hparams, hinputs, he.reading_scan_eq, he.rxq_arrivals_eq⟩

/-- Settles O50: the effects that send one of the five frames are those of the instructions that transmit. -/
theorem transmitLogOnlyGrows : Obligations.TransmitLogOnlyGrows := by
  intro i s t h
  cases Effect.of_exec h with
  | answers hquiet => exact ⟨fun hsend => absurd hsend hquiet, fun _ => rfl⟩
  | sends hsend hf => exact ⟨fun _ => ⟨_, hf, rfl⟩, fun hquiet => absurd hsend hquiet⟩
  | sendsAndDrains hsend hf => exact ⟨fun _ => ⟨_, hf, by simp⟩, fun hquiet => absurd hsend hquiet⟩
  | reads hquiet =>
    obtain ⟨-, -, htx, -⟩ := readFrame_frame s
    exact ⟨fun hsend => absurd hsend hquiet, fun _ => htx⟩
  | @sendsAndReads f hsend hf =>
    obtain ⟨-, -, htx, -⟩ := readFrame_frame (send f s)
    exact ⟨fun _ => ⟨f, hf, htx⟩, fun hquiet => absurd hsend hquiet⟩
  | received hquiet => exact ⟨fun hsend => absurd hsend hquiet, fun _ => rfl⟩

/-! ## What a step can do (R33, R42, R127) -/

/-- A step lets the environment move, or takes one input: a reset, bytes, an item that names no operation, or an
instruction. -/
theorem step_cases {s t : State} (h : step s = .next t) :
    (s.inputs = [] ∧ t = envMove s) ∨
    (∃ rest, s.inputs = .reset :: rest ∧ t = resetBlock { s with inputs := rest }) ∨
    ∃ rest, (∃ bs, t = receive bs { s with inputs := rest }) ∨ t = respond .illegalOp { s with inputs := rest } ∨
      ∃ i, Effect { s with inputs := rest } i t := by
  unfold step at h
  split at h
  next hin => exact .inl ⟨hin, (Host.Outcome.next.inj h).symm⟩
  next rest hin => exact .inr (.inl ⟨rest, hin, (Host.Outcome.next.inj h).symm⟩)
  next b rest hin => exact .inr (.inr ⟨rest, .inl ⟨[b], (Host.Outcome.next.inj h).symm⟩⟩)
  next item rest hin =>
    refine .inr (.inr ⟨rest, ?_⟩)
    split at h
    · exact .inr (.inr ⟨_, .of_exec h⟩)
    · cases item with
      | hostWord w => exact .inr (.inl (Host.Outcome.next.inj h).symm)
      | commandFrame f => exact .inr (.inl (Host.Outcome.next.inj h).symm)
      | dataFrame f => exact .inl ⟨f.toList, (Host.Outcome.next.inj h).symm⟩

/-- Settles O52: among the moves of a step reset alone writes MODE, and none the parameters. -/
theorem modeIsFixedBetweenResets : Obligations.ModeIsFixedBetweenResets := by
  intro s t h
  obtain ⟨-, rfl⟩ | ⟨rest, hin, rfl⟩ | ⟨rest, ⟨bs, rfl⟩ | rfl | ⟨i, he⟩⟩ := step_cases h
  · simp
  · exact ⟨rfl, fun hno => absurd hin (hno rest)⟩
  · simp
  · simp
  · obtain ⟨hmode, hparams, -⟩ := he.mode_params_inputs
    exact ⟨hparams, fun _ => hmode⟩

/-! ## Reset (R27, R127) -/

/-- Settles O8: the frame is the one the model gives F at reset. -/
theorem resetOfALiveInstance : Obligations.ResetOfALiveInstance := by
  intro s rest hin
  refine ⟨State.frameAtReset, ?_⟩
  simp only [step, hin]
  rfl

/-- Settles O9: each is the value `State.resetWith` writes. -/
theorem resetStateHoldsTheResetValues : Obligations.ResetStateHoldsTheResetValues :=
  ⟨⟨rfl, rfl, rfl, rfl, rfl, rfl⟩, fun _ _ _ => ⟨rfl, rfl, rfl, rfl, rfl, rfl, rfl⟩⟩

/-! ## The invariant (R16, R17, R20, R22, R37, R46, R76, R78)

Each move keeps it. -/

theorem TxFramed.nil : TxFramed [] := ⟨[], by simp, rfl⟩

/-- A new machine meets the invariant: the Reading is absent and nothing has been sent. -/
theorem inv_resetWith (p : Params) (q : List Byte) (a : List (List Byte)) : Inv (State.resetWith p q a) where
  phase_idle := rfl
  mode_init := rfl
  iter_bound := Nat.zero_le _
  reading_good _ h := nomatch h
  tx_framed := .nil
  response_agrees := trivial

/-- Settles O10: `State.reset` is one of the states that `State.resetWith` gives. -/
theorem resetStateMeetsTheInvariant : Obligations.ResetStateMeetsTheInvariant :=
  ⟨inv_resetWith _ _ _, inv_resetWith⟩

/-- The host's pending inputs take no part in the invariant. -/
theorem Inv.withInputs {s : State} (h : Inv s) (l : List Input) : Inv { s with inputs := l } := { h with }

theorem Inv.receive {s : State} (h : Inv s) (bs : List Byte) : Inv (receive bs s) := { h with }

theorem Inv.rxDrain {s : State} (h : Inv s) : Inv (rxDrain s) := { h with }

theorem Inv.envMove {s : State} (h : Inv s) : Inv (envMove s) := by
  rw [envMove_eq]
  exact { h with }

theorem Inv.send {s : State} (h : Inv s) {f : CommandFrame} (hf : f ∈ transmittedFrames) : Inv (send f s) :=
  { h with tx_framed := h.tx_framed.append hf }

theorem Inv.respond {s : State} (h : Inv s) {r : Response} (hr : ResponseAgrees s.reading (some r)) :
    Inv (respond r s) :=
  { h with response_agrees := hr }

/-- read_frame decides the Reading and the response together, whatever they were (R76, R78). -/
theorem Inv.readFrame {s : State} (h : Inv s) : Inv (readFrame s) := by
  obtain ⟨hmode, hparams, htx, -, hphase, hiter⟩ := readFrame_frame s
  have hframed : TxFramed (Machine.readFrame s).txlog := htx ▸ h.tx_framed
  refine ⟨hphase, by rw [hmode, hparams, h.mode_init], by rwa [hparams], ?_, hframed, ?_⟩
  all_goals obtain ⟨c, hresp, hnone⟩ | ⟨r, hresp, hsome, hgood, hdecode⟩ := readFrame_answer s
  · simp [hnone]
  · rw [hsome]
    rintro _ ⟨⟩
    exact ⟨hgood, hdecode⟩
  · rw [hresp]
    exact hnone
  · rw [hresp]
    exact hsome

/-- Every effect of an instruction keeps the invariant. -/
theorem Inv.effect {s t : State} {i : Instr} (h : Inv s) (he : Effect s i t) : Inv t := by
  cases he with
  | answers _ hr => exact h.respond hr
  | sends _ hf => exact (h.send hf).respond trivial
  | sendsAndDrains _ hf => exact (h.send hf).envMove.rxDrain.respond trivial
  | reads => exact h.readFrame
  | sendsAndReads _ hf => exact (h.send hf).readFrame
  | received => exact h.receive _

/-- Settles O11: every move of a step keeps the invariant, and reset establishes it. -/
theorem everyStepKeepsTheInvariant : Obligations.EveryStepKeepsTheInvariant := by
  intro s t h hstep
  obtain ⟨-, rfl⟩ | ⟨rest, -, rfl⟩ | ⟨rest, ⟨bs, rfl⟩ | rfl | ⟨i, he⟩⟩ := step_cases hstep
  · exact h.envMove
  · exact (inv_resetWith _ _ _).withInputs rest
  · exact (h.withInputs rest).receive bs
  · exact (h.withInputs rest).respond trivial
  · exact (h.withInputs rest).effect he

/-! ## get_field by the Reading (R95, R96) -/

theorem execGetField_present {s : State} {r : Reading} {idx : BitVec 4} {v : FieldValue} (hr : s.reading = some r)
    (hidx : ¬ Config.nFields ≤ idx.toNat) (hv : readingField r idx = some v) :
    execGetField idx s = .next (respond (.present v) s) := by
  simp only [execGetField, if_neg hidx, hr, hv]

theorem execGetField_absent {s : State} {idx : BitVec 4} (hr : s.reading = none)
    (hidx : ¬ Config.nFields ≤ idx.toNat) :
    execGetField idx s = .next (respond .absent s) := by
  simp only [execGetField, if_neg hidx, hr]

/-- Settles O42: each register by its row of `readingField`. -/
theorem getFieldAnswersTheRegister : Obligations.GetFieldAnswersTheRegister := by
  intro s r hr
  refine ⟨?_, ?_, ?_, ?_, ?_, ?_, ?_, ?_, ?_, ?_, ?_, ?_, ?_, ?_⟩ <;>
    exact execGetField_present hr (by decide) rfl

/-- Settles O45: by the invariant a present Reading is the decode of a frame whose error code is 0. -/
theorem errorCodeFieldIsNeverNonZero : Obligations.ErrorCodeFieldIsNeverNonZero := by
  intro s hinv
  cases hx : s.reading with
  | none => exact ⟨_, execGetField_absent hx (by decide), .inr rfl⟩
  | some x =>
    obtain ⟨⟨-, -, -, hcode⟩, rfl⟩ := hinv.reading_good x hx
    have hzero : (decodeReading s.frame).error_code = 0 := hcode
    exact ⟨_, execGetField_present hx (by decide) rfl, .inl (by rw [respond_response, hzero])⟩

/-! ## When read_frame succeeds (R16, R71 to R77) -/

/-- A candidate is good exactly when the block's own three checks pass. -/
theorem goodFrame_iff {f : DataFrame} (hm : HasMarker f) :
    GoodFrame f ↔ checksumPasses f ∧ ¬ payloadIsZero f ∧ f[29] = 0 := by
  rw [GoodFrame, sumPasses_iff, zeroRegion_iff, and_iff_right hm]

/-- The checks answer a Reading exactly when all three pass, and it is the decode of the frame. -/
theorem checkFrame_okReading_iff {s : State} (hm : HasMarker s.frame) (r : Reading) :
    (checkFrame s).response = some (.okReading r) ↔ GoodFrame s.frame ∧ r = decodeReading s.frame := by
  rw [goodFrame_iff hm]
  obtain ⟨hbad, e⟩ | ⟨-, hbad, e⟩ | ⟨-, -, hbad, e⟩ | ⟨hsum, hzero, hcode, e⟩ := checkFrame_cases s
  · exact iff_of_false (by simp [e]) fun ⟨⟨hsum, _⟩, _⟩ => hbad hsum
  · exact iff_of_false (by simp [e]) fun ⟨⟨_, hzero, _⟩, _⟩ => hzero hbad
  · exact iff_of_false (by simp [e]) fun ⟨⟨_, _, hcode⟩, _⟩ => hbad hcode
  · rw [and_iff_right ⟨hsum, hzero, hcode⟩, e, commit_response]
    simp [eq_comm]

/-- On a candidate the answer is that of the checks. -/
theorem readFrame_okReading_iff {s : State} {j : Nat} {f : DataFrame} {rest : List Byte} (c : Candidate s j f rest)
    (r : Reading) : (readFrame s).response = some (.okReading r) ↔ GoodFrame f ∧ r = decodeReading f := by
  rw [readFrame_candidate c]
  exact checkFrame_okReading_iff c.marker r

/-- Settles O24: a read that finds no candidate answers an error, and the checks judge a candidate. -/
theorem readFrameSucceedsExactlyOnGoodFrames : Obligations.ReadFrameSucceedsExactlyOnGoodFrames := by
  intro s t r h
  obtain rfl : readFrame s = t := Host.Outcome.next.inj h
  constructor
  · intro hr
    obtain hnone | ⟨j, hfirst, hshort | ⟨f, rest, c⟩⟩ := readFrame_inputs s
    · simp [readFrame_noMarker hnone] at hr
    · simp [readFrame_firstMarker_short hfirst hshort] at hr
    · exact ⟨j, f, rest, c, (readFrame_okReading_iff c r).1 hr⟩
  · rintro ⟨j, f, rest, c, hgood⟩
    exact (readFrame_okReading_iff c r).2 hgood

/-! ## The phase machine (R20, R22) -/

/-- The checks end in error entry or in a commit. -/
theorem checkFrame_raise_or_commit (s : State) :
    (∃ c, checkFrame s = raise c s) ∨ checkFrame s = commit (decodeReading s.frame) s := by
  obtain ⟨-, e⟩ | ⟨-, -, e⟩ | ⟨-, -, -, e⟩ | ⟨-, -, -, e⟩ := checkFrame_cases s
  · exact .inl ⟨_, e⟩
  · exact .inl ⟨_, e⟩
  · exact .inl ⟨_, e⟩
  · exact .inr e

@[simp] theorem checkFrame_phase (s : State) : (checkFrame s).phase = .idle := by
  obtain ⟨c, h⟩ | h := checkFrame_raise_or_commit s
  · simp [h]
  · simp [h]

@[simp] theorem checkFrame_iter (s : State) : (checkFrame s).iter = s.iter := by
  obtain ⟨c, h⟩ | h := checkFrame_raise_or_commit s
  · simp [h]
  · simp [h]

@[simp] theorem checkFrame_params (s : State) : (checkFrame s).params = s.params := by
  obtain ⟨c, h⟩ | h := checkFrame_raise_or_commit s
  · simp [h]
  · simp [h]

/-- The payload read goes on to the checks, or ends the read. -/
theorem pullPayload_phase (s : State) : (pullPayload s).phase = .check ∨ (pullPayload s).phase = .idle := by
  obtain ⟨_, e⟩ | ⟨-, e⟩ := pullPayload_cases s <;> simp [e]

@[simp] theorem pullPayload_iter (s : State) : (pullPayload s).iter = s.iter := by
  obtain ⟨_, e⟩ | ⟨-, e⟩ := pullPayload_cases s <;> simp [e]

@[simp] theorem pullPayload_params (s : State) : (pullPayload s).params = s.params := by
  obtain ⟨_, e⟩ | ⟨-, e⟩ := pullPayload_cases s <;> simp [e]

/-- One pull finds the marker, or leaves the phase. -/
theorem scanPull_phase (s : State) : (scanPull s).phase = .payload ∨ (scanPull s).phase = s.phase := by
  obtain ⟨-, -, e⟩ | ⟨-, e⟩ := scanPull_cases s <;> simp [e]

@[simp] theorem scanPull_iter (s : State) : (scanPull s).iter = s.iter + 1 := by
  obtain ⟨-, -, e⟩ | ⟨-, e⟩ := scanPull_cases s <;> simp [e]

@[simp] theorem scanPull_params (s : State) : (scanPull s).params = s.params := by
  obtain ⟨-, -, e⟩ | ⟨-, e⟩ := scanPull_cases s <;> simp [e]

/-! ### One move, by the phase -/

theorem advance_idle {s : State} (h : s.phase = .idle) : advance s = s := by simp [advance, h]

theorem advance_scan {s : State} (h : s.phase = .scan) (hlt : s.iter < s.params.maxScanIter) :
    advance s = scanPull s := by simp [advance, h, hlt]

theorem advance_scan_end {s : State} (h : s.phase = .scan) (hge : ¬ s.iter < s.params.maxScanIter) :
    advance s = raise .noStart s := by simp [advance, h, hge]

theorem advance_payload {s : State} (h : s.phase = .payload) : advance s = pullPayload s := by simp [advance, h]

theorem advance_check {s : State} (h : s.phase = .check) : advance s = checkFrame s := by simp [advance, h]

/-- Settles O32: the phase each kind of move leaves. -/
theorem phaseFollowsItsTransitions : Obligations.PhaseFollowsItsTransitions := by
  refine ⟨enterScan_phase, fun s => ?_⟩
  cases hp : s.phase with
  | idle => simp [advance_idle hp, hp]
  | scan =>
    by_cases hlt : s.iter < s.params.maxScanIter
    · obtain h | h := scanPull_phase s <;> simp [advance_scan hp hlt, h, hp]
    · simp [advance_scan_end hp hlt]
  | payload => obtain h | h := pullPayload_phase s <;> simp [advance_payload hp, h]
  | check => simp [advance_check hp]

/-- One move writes no parameter and keeps ITER within the bound: a pull is made below the bound only (R66). -/
theorem advance_iter_bound {s : State} (h : s.iter ≤ s.params.maxScanIter) :
    (advance s).iter ≤ (advance s).params.maxScanIter := by
  cases hp : s.phase with
  | idle => simpa [advance_idle hp]
  | scan =>
    by_cases hlt : s.iter < s.params.maxScanIter
    · simpa [advance_scan hp hlt]
    · simpa [advance_scan_end hp hlt]
  | payload => simpa [advance_payload hp]
  | check => simpa [advance_check hp]

theorem advanceN_iter_bound (n : Nat) {s : State} (h : s.iter ≤ s.params.maxScanIter) :
    (advanceN n s).iter ≤ (advanceN n s).params.maxScanIter := by
  induction n generalizing s with
  | zero => exact h
  | succ n ih => exact ih (advance_iter_bound h)

/-- Settles O33: ITER is 0 at entry, and every move keeps the bound. -/
theorem iterationCountStaysWithinTheBound : Obligations.IterationCountStaysWithinTheBound :=
  fun _ n => ⟨rfl, advanceN_iter_bound n (Nat.zero_le _)⟩

/-! ## read_frame run whole and move by move (R22, R63, R141) -/

theorem advanceN_add (m n : Nat) (s : State) : advanceN (m + n) s = advanceN n (advanceN m s) := by
  induction m generalizing s with
  | zero => rw [Nat.zero_add]; rfl
  | succ m ih => rw [Nat.succ_add]; exact ih (advance s)

theorem advanceN_idle (n : Nat) {s : State} (h : s.phase = .idle) : advanceN n s = s := by
  induction n with
  | zero => rfl
  | succ n ih => rw [advanceN, advance_idle h, ih]

/-- The moves reach the end of the scan in as many moves as it makes pulls; it has found the marker or made them all. -/
theorem scan_reached (k : Nat) {s : State} (hp : s.phase = .scan) (hk : s.iter + k = s.params.maxScanIter) :
    (∃ m ≤ k, advanceN m s = scan k s) ∧
    ((scan k s).phase = .payload ∨
      (scan k s).phase = .scan ∧ ¬ (scan k s).iter < (scan k s).params.maxScanIter) := by
  induction k generalizing s with
  | zero => exact ⟨⟨0, le_rfl, rfl⟩, .inr ⟨hp, by simp only [scan]; omega⟩⟩
  | succ k ih =>
    have hmove : advance s = scanPull s := advance_scan hp (by omega)
    obtain hfound | hsame := scanPull_phase s
    · have hscan : scan (k + 1) s = scanPull s := by simp only [scan, hfound]
      rw [hscan]
      exact ⟨⟨1, by omega, hmove⟩, .inl hfound⟩
    · rw [hp] at hsame
      have hscan : scan (k + 1) s = scan k (scanPull s) := by simp only [scan, hsame]
      obtain ⟨⟨m, hm, hreach⟩, hend⟩ := ih hsame (by simp only [scanPull_iter, scanPull_params]; omega)
      rw [hscan]
      exact ⟨⟨m + 1, by omega, by rw [advanceN, hmove, hreach]⟩, hend⟩

/-- The moves reach the end of the read: at most two moves after the scan. -/
theorem readFrame_reached (s : State) : ∃ m ≤ s.params.maxScanIter + 2, advanceN m (enterScan s) = readFrame s := by
  obtain ⟨⟨m, hm, hreach⟩, hend⟩ := scan_reached s.params.maxScanIter (s := enterScan s) rfl (Nat.zero_add _)
  obtain hfound | ⟨hscan, hiter⟩ := hend
  · obtain hcheck | hidle := pullPayload_phase (scan s.params.maxScanIter (enterScan s))
    · refine ⟨m + 2, by omega, ?_⟩
      rw [advanceN_add, hreach, advanceN, advance_payload hfound, advanceN, advance_check hcheck,
        readFrame_check rfl hfound rfl hcheck, advanceN]
    · refine ⟨m + 1, by omega, ?_⟩
      rw [advanceN_add, hreach, advanceN, advance_payload hfound, readFrame_short rfl hfound rfl hidle, advanceN]
  · refine ⟨m + 1, by omega, ?_⟩
    rw [advanceN_add, hreach, advanceN, advance_scan_end hscan hiter, readFrame_noStart rfl hscan, advanceN]

/-- Settles O34: the moves reach the end of the read within the bound, where the block is idle and stays. -/
theorem readFrameIsThePhaseMachine : Obligations.ReadFrameIsThePhaseMachine := by
  intro s n hn
  obtain ⟨m, hm, hreach⟩ := readFrame_reached s
  obtain ⟨-, -, -, -, hidle, -⟩ := readFrame_frame s
  have hall : advanceN n (enterScan s) = readFrame s := by
    rw [← Nat.add_sub_cancel' (hm.trans hn), advanceN_add, hreach, advanceN_idle _ hidle]
  rw [hall]
  exact ⟨rfl, hidle⟩

end Sys2Proof.Machine

/-!
The receive stream (spec 20_memory.md): what the inputs that are no operation do to RXQ, and that the stream is taken first
in, first out.
-/

namespace Sys2Proof.Machine

/-! ## The steps that run no instruction (R32, R33, R106) -/

/-- The environment's move, with or without a next list in the schedule (R33). -/
theorem envMove_eq_append (s : State) :
    envMove s = { s with rxq := s.rxq ++ s.arrivals.head?.getD [], arrivals := s.arrivals.tail } := by
  cases ha : s.arrivals with
  | nil =>
    rw [envMove_nil ha, List.head?_nil, Option.getD_none, List.append_nil, List.tail_nil, ← ha]
  | cons bs rest => exact envMove_cons ha

/-- With nothing pending only the environment moves (R42). -/
theorem step_noInput {s : State} (hin : s.inputs = []) : step s = .next (envMove s) := by
  simp only [step, hin]

/-- A step on an item that the decoder rejects. -/
theorem step_rejected {s : State} {item : Transfer} {rest : List Input} {e : DecodeError}
    (hin : s.inputs = .transfer item :: rest) (hdec : decode item = .error e) :
    step s = rejected item { s with inputs := rest } := by
  simp only [step, hin, hdec]

/-- Settles O7: with no input and with a byte the environment appends, and the decoder rejects what has no marker. -/
theorem stepTakesTheOtherInputs : Obligations.StepTakesTheOtherInputs := by
  refine ⟨fun s hin => ?_, fun s b rest hin => ?_, fun s f rest hin hm => ?_, fun s f rest hin hm => ?_⟩
  · rw [step_noInput hin, envMove_eq_append]
  · simp only [step, hin]
    rfl
  · exact step_rejected hin (if_neg hm)
  · exact step_rejected hin (if_neg hm)

/-! ## A data frame on RX (R33, R48) -/

/-- The layout of R48, with the fields read from a frame, gives the frame's bytes back. -/
theorem dataBytes_decodeReading {f : DataFrame} (hm : HasMarker f) :
    dataBytes (beWord f[2] f[3]) (decodeReading f) f[30] f[31] = f := by
  obtain ⟨h0, h1⟩ := hm
  ext i hi
  interval_cases i <;> simp [dataBytes, decodeReading, h0, h1, Config.marker0, Config.marker1]

/-- A data frame decodes to its fields exactly when it opens with the marker (R48, R56). -/
theorem decode_dataFrame_ok_iff {f : DataFrame} {i : Instr} :
    decode (.dataFrame f) = .ok i ↔
      HasMarker f ∧ i = .frameData (beWord f[2] f[3]) (decodeReading f) f[30] f[31] := by
  by_cases hm : HasMarker f
  · have hdec : decode (.dataFrame f) = .ok (.frameData (beWord f[2] f[3]) (decodeReading f) f[30] f[31]) := if_pos hm
    rw [hdec, Except.ok.injEq, and_iff_right hm, eq_comm]
  · have hdec : decode (.dataFrame f) = .error .noMarker := if_neg hm
    simp [hdec, hm]

/-- Settles O48: the instruction's bytes are those of the frame it was decoded from. -/
theorem wireDataFrameIsReceived : Obligations.WireDataFrameIsReceived := by
  intro f i s hdec
  obtain ⟨hm, rfl⟩ := decode_dataFrame_ok_iff.1 hdec
  simp only [exec, execFrameData, dataBytes_decodeReading hm]
  rfl

/-! ## First in, first out (R32, R42)

Each part of an operation leaves a suffix of the bytes that were pending. -/

/-- The bytes that pulls can still take, in order: those buffered, then those to arrive. -/
def State.pending (s : State) : List Byte := s.rxq ++ s.arrivals.flatten

@[simp] theorem respond_pending (r : Response) (s : State) : (respond r s).pending = s.pending := rfl
@[simp] theorem send_pending (f : CommandFrame) (s : State) : (send f s).pending = s.pending := rfl
@[simp] theorem raise_pending (c : ErrorCause) (s : State) : (raise c s).pending = s.pending := rfl
@[simp] theorem commit_pending (r : Reading) (s : State) : (commit r s).pending = s.pending := rfl
@[simp] theorem pending_envMove (s : State) : (envMove s).pending = s.pending := envMove_pending s

@[simp] theorem checkFrame_pending (s : State) : (checkFrame s).pending = s.pending := by
  obtain ⟨c, h⟩ | h := checkFrame_raise_or_commit s
  · simp [h]
  · simp [h]

/-- Taking bytes off the head of RXQ leaves a suffix. -/
theorem pending_suffix_of_rxq {s t : State} (hr : t.rxq <:+ s.rxq) (ha : t.arrivals = s.arrivals) :
    t.pending <:+ s.pending := by
  obtain ⟨taken, h⟩ := hr
  exact ⟨taken, by simp [State.pending, ← h, ha]⟩

theorem rxDrain_pending_suffix (s : State) : (rxDrain s).pending <:+ s.pending :=
  pending_suffix_of_rxq List.nil_suffix rfl

theorem afterPulls_pending_suffix (n : Nat) (s : State) : (afterPulls n s).pending <:+ s.pending := by
  obtain ⟨taken, h⟩ := afterPulls_pending n s
  exact ⟨taken, h.symm⟩

/-- Pulls, the environment's move and then taking bytes off the head of RXQ leave a suffix. -/
theorem pending_suffix_of_afterPulls {n : Nat} {s t : State} (hr : t.rxq <:+ (envMove (afterPulls n s)).rxq)
    (ha : t.arrivals = (envMove (afterPulls n s)).arrivals) : t.pending <:+ s.pending :=
  calc t.pending
    _ <:+ (envMove (afterPulls n s)).pending := pending_suffix_of_rxq hr ha
    _ = (afterPulls n s).pending := pending_envMove _
    _ <:+ s.pending := afterPulls_pending_suffix n s

/-- However a read_frame ends, it has made pulls and taken at most thirty bytes more. -/
theorem readFrame_pending_suffix (s : State) : (readFrame s).pending <:+ s.pending := by
  obtain ⟨lb, h⟩ | ⟨j, -, -, h⟩ | ⟨j, -, hl, h⟩ := readFrame_cases s
  · rw [h, raise_pending]
    exact afterPulls_pending_suffix _ s
  · rw [h, raise_pending]
    exact pending_suffix_of_afterPulls List.nil_suffix rfl
  · rw [h, checkFrame_pending]
    exact pending_suffix_of_afterPulls (List.drop_suffix 30 _) rfl

/-- Every effect but the environment's own leaves a suffix of the pending bytes. -/
theorem Effect.pending_suffix {i : Instr} {s t : State} (h : Effect s i t) (hd : i.format ≠ .data32) :
    t.pending <:+ s.pending := by
  cases h with
  | answers => rw [respond_pending]
  | sends => rw [respond_pending, send_pending]
  | sendsAndDrains =>
    rw [respond_pending]
    exact (rxDrain_pending_suffix _).trans (by rw [pending_envMove, send_pending])
  | reads => exact readFrame_pending_suffix s
  | @sendsAndReads f => exact readFrame_pending_suffix (send f s)
  | received _ hi => exact absurd hi hd

/-- Settles O49: the effect of the instruction leaves a suffix of the pending bytes. -/
theorem receiveStreamIsFirstInFirstOut : Obligations.ReceiveStreamIsFirstInFirstOut := by
  intro i s t hd h
  obtain ⟨taken, htaken⟩ := (Effect.of_exec h).pending_suffix hd
  exact ⟨taken, htaken.symm⟩

end Sys2Proof.Machine

/-!
The encodings (spec 30_encoding.md): the decoder and the encoder on the three formats, what a word or a frame that names no
operation does, and the operations that the rows of the wire formats run.
-/

namespace Sys2Proof.Machine

/-! ## The host operation word (R51 to R55) -/

/-- Settles O3: the operation code decides the row, and each row reads only its own fields. -/
theorem hostWordUnusedFieldsIgnored : Obligations.HostWordUnusedFieldsIgnored := by
  intro idx cmd payload
  have fields (op : BitVec 4) := hostWord_fields op idx cmd payload
  simp only [hostWord] at fields
  simp [decode, decodeHostWord, fields]

/-- The encoder writes each operation at a word the decoder reads it from, get_field of 14 and 15 too (R54). -/
theorem decode_encode_of_hostOp {i : Instr} (hi : i.format = .hostOp) : decode (encode i) = .ok i := by
  obtain ⟨-, hpassive, hactive, hsleep, hwake, hrequest, hread, hget, -⟩ := hostWordUnusedFieldsIgnored 0 0 0
  cases i with
  | buildCommand cmd payload =>
    obtain ⟨hbuild, -⟩ := hostWordUnusedFieldsIgnored 0 cmd payload
    exact hbuild
  | setPassive => exact hpassive
  | setActive => exact hactive
  | sleep => exact hsleep
  | wake => exact hwake
  | requestRead => exact hrequest
  | readFrame => exact hread
  | getReading => exact hget
  | getField idx =>
    obtain ⟨-, -, -, -, -, -, -, -, hfield⟩ := hostWordUnusedFieldsIgnored idx 0 0
    exact hfield
  | _ => cases hi

/-- The operation code is the word's most significant hexadecimal digit. -/
theorem opField_toNat (w : BitVec 32) : (w.extractLsb' 28 4).toNat = w.toNat / 2 ^ 28 := by
  rw [BitVec.extractLsb'_toNat, Nat.shiftRight_eq_div_pow]
  omega

/-- The decoder rejects the codes that no row has (R53). -/
theorem decode_hostWord_reserved {w : BitVec 32} (h : w.toNat / 2 ^ 28 = 0 ∨ 10 ≤ w.toNat / 2 ^ 28) :
    decode (.hostWord w) = .error (.reservedOp (w.extractLsb' 28 4)) := by
  rw [← opField_toNat] at h
  rw [decode, decodeHostWord]
  split
  case h_10 => rfl
  all_goals omega

/-- Settles O4: the decoder rejects the word, and a rejected word is answered and does no more. -/
theorem reservedOperationAnswersIllegalOp : Obligations.ReservedOperationAnswersIllegalOp := by
  intro s w rest hin hop
  exact step_rejected hin (decode_hostWord_reserved hop)

/-! ## The command frame (R46, R47) -/

/-- The fields read back from the layout of R46. -/
theorem decode_commandBytes (command : Byte) (payload checksum : Word16) :
    decode (.commandFrame (commandBytes command payload checksum)) = .ok (commandRow command payload checksum) := by
  simp [decode, decodeCommandFrame, commandBytes]

/-- The layout of R46, with the fields read from a frame, gives the frame's bytes back. -/
theorem commandBytes_fields {f : CommandFrame} (h0 : f[0] = 0x42) (h1 : f[1] = 0x4D) :
    commandBytes f[2] (beWord f[3] f[4]) (beWord f[5] f[6]) = f := by
  ext i hi
  interval_cases i <;> simp [commandBytes, h0, h1, Config.marker0, Config.marker1]

/-- A command frame decodes to the row of its fields exactly when it opens with the marker (R46). -/
theorem decode_commandFrame_ok_iff {f : CommandFrame} {i : Instr} :
    decode (.commandFrame f) = .ok i ↔
      (f[0] = 0x42 ∧ f[1] = 0x4D) ∧ i = commandRow f[2] (beWord f[3] f[4]) (beWord f[5] f[6]) := by
  by_cases hm : f[0] = 0x42 ∧ f[1] = 0x4D
  · have hdec : decode (.commandFrame f) = .ok (commandRow f[2] (beWord f[3] f[4]) (beWord f[5] f[6])) := if_pos hm
    rw [hdec, Except.ok.injEq, and_iff_right hm, eq_comm]
  · have hdec : decode (.commandFrame f) = .error .noMarker := if_neg hm
    rw [hdec]
    exact iff_of_false nofun fun h => hm h.1

/-- Whichever row the fields select, its encoding is their layout (R46, R47). -/
theorem encode_commandRow (command : Byte) (payload checksum : Word16) :
    encode (commandRow command payload checksum) = .commandFrame (commandBytes command payload checksum) := by
  unfold commandRow
  split_ifs with h h h h h
  case neg => rfl
  all_goals
    obtain ⟨rfl, rfl, rfl⟩ : command = _ ∧ payload = _ ∧ checksum = _ := by simpa using h
    rfl

/-- Fields that spell none of the five fixed frames are the row frame.command (R47). -/
theorem commandRow_of_not_fixed {command : Byte} {payload : Word16} (h : (command, payload) ∉ fixedCommands)
    (checksum : Word16) : commandRow command payload checksum = .frameCommand command payload checksum := by
  have hne {c : Byte} {p k : Word16} (hfixed : (c, p) ∈ fixedCommands) :
      (command, payload, checksum) ≠ (c, p, k) := by
    rintro ⟨⟩
    exact h hfixed
  unfold commandRow
  rw [if_neg (hne (by decide)), if_neg (hne (by decide)), if_neg (hne (by decide)), if_neg (hne (by decide)),
    if_neg (hne (by decide))]

/-! ## Decode and encode agree -/

/-- The fields read back from the layout of R48. -/
theorem decode_dataBytes (length : Word16) (fields : Reading) (checksumHi checksumLo : Byte) :
    decode (.dataFrame (dataBytes length fields checksumHi checksumLo)) =
      .ok (.frameData length fields checksumHi checksumLo) := by
  refine decode_dataFrame_ok_iff.2 ⟨⟨rfl, rfl⟩, ?_⟩
  rw [decodeReading_dataBytes]
  simp [dataBytes]

/-- Settles O1: word by word for the host operations, and by the layouts for the two kinds of frame. -/
theorem decodeOfEncodeIsTheInstruction : Obligations.DecodeOfEncodeIsTheInstruction := by
  intro i hwf
  cases i with
  | frameCommand command payload checksum =>
    have hfixed : (command, payload) ∉ fixedCommands := by
      simp only [Instr.wellFormed, Bool.and_eq_true, Bool.not_eq_true', List.contains_eq_mem, decide_eq_false_iff_not]
        at hwf
      exact hwf.2
    exact (decode_commandBytes command payload checksum).trans
      (congrArg Except.ok (commandRow_of_not_fixed hfixed checksum))
  | frameSetPassive => rfl
  | frameSetActive => rfl
  | frameRequestRead => rfl
  | frameSleep => rfl
  | frameWake => rfl
  | frameData length fields checksumHi checksumLo => exact decode_dataBytes length fields checksumHi checksumLo
  | _ => exact decode_encode_of_hostOp rfl

/-- Settles O2: either kind of frame is the layout of the fields the decoder reads from it. -/
theorem decodedFrameEncodesBack : Obligations.DecodedFrameEncodesBack := by
  constructor
  · intro f i hdec
    obtain ⟨⟨h0, h1⟩, rfl⟩ := decode_commandFrame_ok_iff.1 hdec
    rw [encode_commandRow, commandBytes_fields h0 h1]
  · intro f i hdec
    obtain ⟨hm, rfl⟩ := decode_dataFrame_ok_iff.1 hdec
    exact congrArg Transfer.dataFrame (dataBytes_decodeReading hm)

/-- Settles O5: the decoder evaluates on each of the spec's words. -/
theorem specWordsDecodeAsTheTableSays : Obligations.SpecWordsDecodeAsTheTableSays :=
  ⟨rfl, rfl, rfl, rfl, rfl, rfl, rfl⟩

/-! ## The data frame (R48 to R50) -/

/-- Settles O28: each register by its row of `readingField`. -/
theorem fieldsAreBigEndianAtTheirOffsets : Obligations.FieldsAreBigEndianAtTheirOffsets := by
  refine fun f => ⟨fun i hi => ?_, rfl, rfl⟩
  interval_cases i <;> rfl

/-- Two bytes always fit a 16-bit quantity (R34). -/
theorem beWord_toNat (hi lo : Byte) : (beWord hi lo).toNat = hi.toNat * 256 + lo.toNat := by
  rw [beWord, BitVec.toNat_ofNat, Nat.mod_eq_of_lt (by omega)]

/-- A sum does not see a change of a byte beyond its last offset. -/
theorem byteSum_set {first last i : Nat} (f : List Byte) (b : Byte) (h : last < i) :
    byteSum (f.set i b) first last = byteSum f first last := by
  unfold byteSum
  by_cases hi : i < first
  · rw [List.drop_set_of_lt hi]
  · rw [List.drop_set, if_neg hi, List.take_set_of_le (by omega)]

/-- Settles O29: both sums end before offset 30, and the decode reads no offset beyond 29. -/
theorem highChecksumByteIsIgnored : Obligations.HighChecksumByteIsIgnored := by
  intro f b
  have hsum : dataChecksum (f.set 30 b) = dataChecksum f := by
    rw [dataChecksum, Vector.toList_set, byteSum_set _ _ (by decide), dataChecksum]
  have hzero : zeroSum (f.set 30 b) = zeroSum f := by
    rw [zeroSum, Vector.toList_set, byteSum_set _ _ (by decide), zeroSum]
  refine ⟨beWord_toNat _ _, ?_, ?_, ?_⟩
  · simp [checksumPasses, hsum]
  · rw [payloadIsZero, hzero]
  · simp [decodeReading]

/-! ## The operations by their frames (R59, R81, R83) -/

/-- build_command answers one frame only (R81). -/
theorem frame_of_exec_buildCommand {command : Byte} {payload : Word16} {s t : State} {f : CommandFrame}
    (h : exec (.buildCommand command payload) s = .next t) (hr : t.response = some (.okFrame f)) :
    f = buildCommand command payload := by
  cases h
  cases hr
  rfl

/-- read_frame starts without a look at the response port (R64). -/
theorem readFrame_respond (r : Response) (s : State) : readFrame (respond r s) = readFrame s := by
  obtain ⟨-, -, -, hinputs, -⟩ := readFrame_frame s
  calc readFrame (respond r s)
    _ = readFrame (s.withHost (some r) s.inputs) := rfl
    _ = { readFrame s with inputs := s.inputs } := readFrame_withHost s (some r) s.inputs
    _ = readFrame s := by rw [← hinputs]

theorem requestIfPassive_passive {s : State} (h : s.mode = .passive) :
    requestIfPassive s = send (buildCommand Config.cmdRead Config.payloadRead) s := by simp [requestIfPassive, h]

theorem requestIfPassive_active {s : State} (h : s.mode = .active) : requestIfPassive s = s := by
  simp [requestIfPassive, h]

/-- Settles O17: the senders are the model's own sequence on build_command's frame; the response of request_read does not
reach the read. -/
theorem compositeOperationsExpand : Obligations.CompositeOperationsExpand := by
  refine ⟨fun s t f hbuild hr => ?_, fun s t f c p i hi hbuild hr => ?_, fun s t hm hreq => ?_, fun s hm => ?_⟩
  · obtain rfl := frame_of_exec_buildCommand hbuild hr
    exact congrArg Host.Outcome.next (sendDrainAnswer_eq _ _ s)
  · obtain rfl := frame_of_exec_buildCommand hbuild hr
    simp only [List.mem_cons, List.not_mem_nil, or_false, Prod.mk.injEq] at hi
    obtain ⟨rfl, rfl, rfl⟩ | ⟨rfl, rfl, rfl⟩ | ⟨rfl, rfl, rfl⟩ | ⟨rfl, rfl, rfl⟩ := hi <;>
      exact congrArg Host.Outcome.next (sendAnswer_eq _ _ s)
  · cases hreq
    simp only [exec, execGetReading, execReadFrame, requestIfPassive_passive hm, sendAnswer_def, readFrame_respond]
  · simp only [exec, execGetReading, execReadFrame, requestIfPassive_active hm]

/-- Settles O46: the five rows run the two shapes of a sending operation, on the bytes of R47. -/
theorem transmittedFramesRunTheirOperations : Obligations.TransmittedFramesRunTheirOperations := fun s =>
  ⟨congrArg Host.Outcome.next (sendDrainAnswer_eq _ _ s), congrArg Host.Outcome.next (sendAnswer_eq _ _ s),
    congrArg Host.Outcome.next (sendAnswer_eq _ _ s), congrArg Host.Outcome.next (sendAnswer_eq _ _ s),
    congrArg Host.Outcome.next (sendAnswer_eq _ _ s)⟩

/-- The sum of R81 does not wrap (R82). -/
theorem commandChecksum_toNat (command : Byte) (payload : Word16) :
    (commandChecksum command payload).toNat =
      0x42 + 0x4D + command.toNat + (payload.extractLsb' 8 8).toNat + (payload.extractLsb' 0 8).toNat := by
  rw [commandChecksum, BitVec.toNat_ofNat]
  refine Nat.mod_eq_of_lt ?_
  change 0x42 + 0x4D + _ + _ + _ < _
  omega

/-- Settles O47: the row's operands are the frame's own bytes (O2), and with the checksum of R81 they are the frame that
build_command makes. -/
theorem commandFramesAreBuiltNotSent : Obligations.CommandFramesAreBuiltNotSent := by
  intro f command payload checksum s hdec
  obtain ⟨hcommand, -⟩ := decodedFrameEncodesBack
  have hbytes : commandBytes command payload checksum = f := Transfer.commandFrame.inj (hcommand f _ hdec)
  simp only [← commandChecksum_toNat, BitVec.toNat_inj]
  obtain ⟨hsum, hexec⟩ | ⟨hsum, hexec⟩ := execFrameCommand_cases command payload checksum s
  · rw [if_pos hsum, ← hbytes, hsum]
    rw [hsum] at hexec
    exact hexec
  · rw [if_neg hsum]
    exact hexec

/-! ## Responses (R60) -/

/-- A read answers in a shape that both reads may give. -/
theorem readFrame_mayAnswer (s : State) :
    ∃ r, (readFrame s).response = some r ∧ mayAnswer .readFrame r = true ∧ mayAnswer .getReading r = true := by
  obtain ⟨c, hc, -⟩ | ⟨r, hr, -⟩ := readFrame_answer s
  · exact ⟨_, hc, rfl, rfl⟩
  · exact ⟨_, hr, rfl, rfl⟩

/-- Settles O53: the sending operations and build_command answer at once, the reads and get_field in one of their ways. -/
theorem everyHostOperationAnswers : Obligations.EveryHostOperationAnswers := by
  intro i s hi
  cases i with
  | buildCommand cmd payload => exact ⟨_, _, rfl, rfl, rfl⟩
  | setPassive => exact ⟨_, _, rfl, rfl, rfl⟩
  | setActive => exact ⟨_, _, rfl, rfl, rfl⟩
  | sleep => exact ⟨_, _, rfl, rfl, rfl⟩
  | wake => exact ⟨_, _, rfl, rfl, rfl⟩
  | requestRead => exact ⟨_, _, rfl, rfl, rfl⟩
  | readFrame =>
    obtain ⟨r, hr, hmay, -⟩ := readFrame_mayAnswer s
    exact ⟨_, r, rfl, hr, hmay⟩
  | getReading =>
    obtain ⟨r, hr, -, hmay⟩ := readFrame_mayAnswer (requestIfPassive s)
    exact ⟨_, r, rfl, hr, hmay⟩
  | getField idx =>
    obtain ⟨r, hexec, hr⟩ := execGetField_cases idx s
    refine ⟨_, r, hexec, rfl, ?_⟩
    obtain rfl | ⟨rfl, -⟩ | ⟨v, -, rfl, -⟩ := hr <;> rfl
  | _ => cases hi

end Sys2Proof.Machine

/-!
The Frame Reader (spec 40_frame_reader.md): one scan iteration, what the outcome of read_frame depends on, the judgement of a
candidate frame, and where read_frame finds a good frame.
-/

namespace Sys2Proof.Machine

/-! ## One scan iteration (R65 to R67) -/

/-- A pull, the environment's move before it included, writes RXQ and the schedule alone (R33, R35). -/
theorem pullRest_envMove (s : State) :
    pullRest (envMove s) = { s with rxq := (envMove s).rxq.drop 1, arrivals := (envMove s).arrivals } := by
  rw [pullRest, envMove_eq s]

theorem pullEvent_of_cons {s : State} {b : Byte} {q : List Byte} (h : s.rxq = b :: q) : pullEvent s = .byte b := by
  simp only [pullEvent, h]

theorem pullEvent_of_nil {s : State} (h : s.rxq = []) : pullEvent s = .noData := by
  simp only [pullEvent, h]

/-- A pull that does not complete the marker leaves its event as the lookback (R67). -/
theorem scanPull_of_mismatch {s : State}
    (h : ¬ (s.lb = some Config.marker0 ∧ pullEvent (envMove s) = .byte Config.marker1)) :
    scanPull s = { s with
      lb := (pullEvent (envMove s)).lookback, iter := s.iter + 1,
      rxq := (envMove s).rxq.drop 1, arrivals := (envMove s).arrivals } := by
  obtain ⟨h0, h1, -⟩ | ⟨-, hs⟩ := scanPull_cases s
  · exact absurd ⟨h0, h1⟩ h
  · rw [hs, pullRest_envMove]

/-- A pull that completes the marker ends the scan (R65). -/
theorem scanPull_of_match {s : State} (h0 : s.lb = some Config.marker0)
    (h1 : pullEvent (envMove s) = .byte Config.marker1) :
    scanPull s = { s with
      phase := .payload, iter := s.iter + 1, rxq := (envMove s).rxq.drop 1, arrivals := (envMove s).arrivals } := by
  obtain ⟨-, -, hs⟩ | ⟨hn, -⟩ := scanPull_cases s
  · rw [hs, pullRest_envMove]
  · exact absurd ⟨h0, h1⟩ hn

/-- Settles O18: what RXQ holds decides the event, and with the lookback whether it completes the marker. -/
theorem scanIterationFollowsTheMarkerRule : Obligations.ScanIterationFollowsTheMarkerRule := by
  refine ⟨fun s b q hq hlb hb => ?_, fun s b q hq hne => ?_, fun s hq => ?_⟩
  · rw [scanPull_of_match hlb (by rw [pullEvent_of_cons hq, hb]; rfl), hq, List.drop_one, List.tail_cons]
  · have hmis : ¬ (s.lb = some Config.marker0 ∧ pullEvent (envMove s) = .byte Config.marker1) := by
      rw [pullEvent_of_cons hq, RxEvent.byte.injEq, not_and_or]
      exact hne
    rw [scanPull_of_mismatch hmis, pullEvent_of_cons hq, hq, List.drop_one, List.tail_cons]
    rfl
  · have hmis : ¬ (s.lb = some Config.marker0 ∧ pullEvent (envMove s) = .byte Config.marker1) := by
      simp [pullEvent_of_nil hq]
    rw [scanPull_of_mismatch hmis, pullEvent_of_nil hq, hq, List.drop_nil]
    rfl

/-! ## What read_frame depends on (R64, R70, R139) -/

/-- The checks look at F alone, and write no MODE, TXLOG or pending input. -/
theorem checkFrame_unread (s : State) (r : Option Reading) (m : Mode) (log : List Byte) (a : Option Response)
    (l : List Input) :
    checkFrame { s with reading := r, mode := m, txlog := log, response := a, inputs := l } =
      { checkFrame s with mode := m, txlog := log, inputs := l } := by
  rw [checkFrame, checkFrame]
  split_ifs <;> rfl

/-- From states that agree on RXQ, the schedule, the parameters and F, read_frame sees the same events and ends the same way;
only what it does not write stays different. -/
theorem readFrame_congr {s t : State} (hr : s.rxq = t.rxq) (ha : s.arrivals = t.arrivals) (hp : s.params = t.params)
    (hf : s.frame = t.frame) :
    readFrame t = { readFrame s with mode := t.mode, txlog := t.txlog, inputs := t.inputs } := by
  have hev := rxEvents_congr s.params.maxScanIter hr ha
  have hrxq (j : Nat) := (afterPulls_congr j hr ha).1
  have harr (j : Nat) := (afterPulls_congr j hr ha).2
  have hmove (j : Nat) := envMove_rxq_congr (hrxq j) (harr j)
  obtain hnone | ⟨j, hfirst, hshort | ⟨f, rest, c⟩⟩ := readFrame_inputs s
  · rw [readFrame_noMarker hnone, readFrame_noMarker (by rwa [← hp, ← hev])]
    simp only [← hp, ← hev, ← hrxq, ← harr, ← hf]
    rfl
  · rw [readFrame_firstMarker_short hfirst hshort,
      readFrame_firstMarker_short (by rwa [← hp, ← hev]) (by rwa [← hmove]), ← hmove,
      ← envMove_arrivals_congr (harr j)]
    simp only [← hp, ← hf]
    rfl
  · have c' : Candidate t j f rest := c.congr hr ha hp
    rw [readFrame_candidate c, readFrame_candidate c',
      ← checkFrame_unread _ t.reading t.mode t.txlog t.response t.inputs]
    simp only [afterCandidate, envMove_arrivals_congr (harr j), hp]

/-- Settles O25: what an earlier operation left is not among what read_frame depends on. -/
theorem readFrameStartsAfresh : Obligations.ReadFrameStartsAfresh := by
  intro s l n p a r
  obtain ⟨hmode, -, htx, hinputs, -⟩ := readFrame_frame s
  have h := readFrame_congr (s := s) (t := { s with lb := l, iter := n, phase := p, response := a, reading := r })
    rfl rfl rfl rfl
  exact congrArg Host.Outcome.next (h.trans (by simp only [← hmode, ← htx, ← hinputs]))

/-- Settles O26: MODE is not among what read_frame depends on, and it does not write it. -/
theorem readFrameIsTheSameInBothModes : Obligations.ReadFrameIsTheSameInBothModes := by
  intro s t m h
  obtain rfl : readFrame s = t := Host.Outcome.next.inj h
  obtain ⟨-, -, htx, hinputs, -⟩ := readFrame_frame s
  have hm := readFrame_congr (s := s) (t := { s with mode := m }) rfl rfl rfl rfl
  exact congrArg Host.Outcome.next (hm.trans (by simp only [← htx, ← hinputs]))

/-! ## The judgement of a candidate (R73 to R77, R111) -/

/-- The block's own checks, in the terms of the claims. -/
theorem checkFrame_eq (s : State) : checkFrame s =
    if s.frame[31] ≠ dataChecksum s.frame then raise (.checksumMismatch (rxChecksum s.frame) (dataChecksum s.frame)) s
    else if ZeroRegion s.frame then raise .zeroPayload s
    else if s.frame[29] ≠ 0 then raise (.sensorError s.frame[29]) s
    else commit (decodeReading s.frame) s := by
  obtain ⟨hsum, e⟩ | ⟨hsum, hzero, e⟩ | ⟨hsum, hzero, hcode, e⟩ | ⟨hsum, hzero, hcode, e⟩ := checkFrame_cases s
  · rw [e, if_pos (Ne.symm hsum)]
  · rw [e, if_neg (not_not_intro hsum.symm), if_pos ((zeroRegion_iff _).2 hzero)]
  · rw [e, if_neg (not_not_intro hsum.symm), if_neg (mt (zeroRegion_iff _).1 hzero), if_pos hcode]
  · rw [e, if_neg (not_not_intro hsum.symm), if_neg (mt (zeroRegion_iff _).1 hzero), if_neg (not_not_intro hcode)]

/-- Settles O21: the candidate is what the checks are made on. -/
theorem readFrameJudgesACandidateInOrder : Obligations.ReadFrameJudgesACandidateInOrder := fun _ _ _ _ c =>
  congrArg Host.Outcome.next ((readFrame_candidate c).trans (checkFrame_eq _))

/-- A good candidate is committed and answered (R76). -/
theorem readFrame_goodCandidate {s : State} {j : Nat} {f : DataFrame} {rest : List Byte} (c : Candidate s j f rest)
    (hf : GoodFrame f) : readFrame s = { afterCandidate s j f rest with
      reading := some (decodeReading f), response := some (.okReading (decodeReading f)) } := by
  obtain ⟨-, hsum, hzero, hcode⟩ := hf
  have hjudge := Host.Outcome.next.inj (readFrameJudgesACandidateInOrder s j f rest c)
  rwa [if_neg (not_not_intro hsum), if_neg hzero, if_neg (not_not_intro hcode)] at hjudge

/-- Settles O40: read_frame does not depend on the read request in TXLOG, and commits the candidate. -/
theorem getReadingCommitsAGoodFrame : Obligations.GetReadingCommitsAGoodFrame := by
  intro s j f rest c hf
  simp only [exec, execGetReading]
  cases hm : s.mode with
  | passive =>
    rw [requestIfPassive_passive hm, readFrame_congr (s := s) (t := send _ s) rfl rfl rfl rfl, readFrame_goodCandidate c hf]
    rfl
  | active =>
    rw [requestIfPassive_active hm, readFrame_goodCandidate c hf, if_neg (by decide), List.append_nil]
    rfl

/-! ## A failing read (R78) -/

/-- A read that does not commit leaves no Reading, and a commit answers no error. -/
theorem readFrame_reading_of_error {s : State} {c : ErrorCause} (h : (readFrame s).response = some (.error c)) :
    (readFrame s).reading = none := by
  obtain ⟨-, -, hnone⟩ | ⟨r, hok, -⟩ := readFrame_answer s
  · exact hnone
  · simp [hok] at h

/-- Settles O36: either read ends in a read_frame. -/
theorem failingReadLeavesTheReadingAbsent : Obligations.FailingReadLeavesTheReadingAbsent := by
  rintro i s t c (rfl | rfl) h herr
  · cases h
    exact readFrame_reading_of_error herr
  · cases h
    exact readFrame_reading_of_error herr

/-! ## A frame behind noise (R69, R79, R80) -/

/-- No two neighbouring bytes of `noise` are the start marker. -/
abbrev NoMarkerPair (noise : List Byte) : Prop := ∀ k : Nat, ¬ (noise[k]? = some 0x42 ∧ noise[k + 1]? = some 0x4D)

theorem noMarkerPair_nil : NoMarkerPair [] := fun _ => by simp

/-- While RXQ holds enough, this is what the payload read after `n` pulls finds. -/
theorem envMove_afterPulls_buffered {n : Nat} {s : State} (h : n ≤ s.rxq.length) :
    (envMove (afterPulls n s)).rxq = s.rxq.drop n ++ (s.arrivals.take (n + 1)).flatten ∧
    (envMove (afterPulls n s)).arrivals = s.arrivals.drop (n + 1) := by
  obtain ⟨hrxq, harr⟩ := afterPulls_buffered n s h
  have hnext : (s.arrivals.drop n).head?.getD [] = s.arrivals[n]?.toList.flatten := by
    rw [List.head?_drop]
    cases s.arrivals[n]? with
    | none => rfl
    | some bs => simp
  rw [envMove_eq_append, hrxq, harr, hnext]
  simp [List.take_add_one]

/-- The marker of a frame behind noise is the first marker of the bytes: no pair stands in the noise, and none across its
end, where the frame's first byte is no 0x4D. -/
theorem firstMarker_behind_noise {s : State} {noise : List Byte} {f : DataFrame} {rest : List Byte} {m : Nat}
    (hq : s.rxq = noise ++ f.toList ++ rest) (hf : HasMarker f) (hnoise : NoMarkerPair noise)
    (hm : noise.length + 2 ≤ m) : FirstMarker (rxEvents m s) (noise.length + 2) := by
  have hlen : s.rxq.length = noise.length + 32 + rest.length := by simp [hq]; omega
  have hevent {i : Nat} (hi : i < noise.length + 2) : (rxEvents m s)[i]? = (s.rxq[i]?).map RxEvent.byte :=
    rxEvents_buffered m i s (by omega) (by omega)
  have hbyte {i : Nat} (hi : i < noise.length) : s.rxq[i]? = noise[i]? := by
    rw [hq, List.append_assoc, List.getElem?_append_left hi]
  have h0 : s.rxq[noise.length]? = some 0x42 := by simp [hq, hf.1]
  have h1 : s.rxq[noise.length + 1]? = some 0x4D := by
    rw [hq, List.append_assoc, List.getElem?_append_right (by omega), Nat.add_sub_cancel_left,
      List.getElem?_append_left (by simp)]
    simp [hf.2]
  refine ⟨⟨by omega, ?_, ?_⟩, fun k hk hmark => ?_⟩
  · rw [Nat.add_sub_cancel, hevent (by omega), h0]
    rfl
  · rw [Nat.add_sub_assoc (by decide), hevent (by omega), h1]
    rfl
  · obtain ⟨hk2, hfst, hsnd⟩ := hmark
    obtain ⟨i, rfl⟩ := Nat.exists_eq_add_of_le' hk2
    rw [Nat.add_sub_cancel, hevent (by omega), hbyte (by omega)] at hfst
    rw [Nat.add_sub_assoc (by decide), hevent (by omega)] at hsnd
    obtain hin | hend : i + 1 < noise.length ∨ i + 1 = noise.length := by omega
    · rw [hbyte hin] at hsnd
      exact hnoise i ⟨by simpa using hfst, by simpa using hsnd⟩
    · rw [hend, h0] at hsnd
      simp at hsnd

/-- Settles O22: the frame behind the noise is a candidate, and a good one. -/
theorem readFrameFindsTheFrameAfterNoise : Obligations.ReadFrameFindsTheFrameAfterNoise := by
  intro s noise f rest hq hf hnoise hbound
  obtain ⟨hrxq, harr⟩ := envMove_afterPulls_buffered (n := noise.length + 2) (s := s) (by simp [hq]; omega)
  have c : Candidate s (noise.length + 2) f (rest ++ (s.arrivals.take (noise.length + 3)).flatten) := by
    refine ⟨firstMarker_behind_noise hq hf.1 hnoise hbound, hf.1, ?_⟩
    rw [hrxq, hq]
    simp [List.drop_append]
  simp only [exec, execReadFrame, readFrame_goodCandidate c hf, afterCandidate, harr]

/-- Settles O31: with no noise before it each frame is found, and the first read leaves the second frame at the head. -/
theorem oldestFrameIsReadFirst : Obligations.OldestFrameIsReadFirst := by
  intro s f g rest hq harr hf hg hbound
  have hfirst := readFrameFindsTheFrameAfterNoise s [] f (g.toList ++ rest) hq hf noMarkerPair_nil hbound
  simp only [harr, List.take_nil, List.flatten_nil, List.append_nil, List.drop_nil] at hfirst
  have hsecond (t : State) (hq' : t.rxq = g.toList ++ rest) (hbound' : 2 ≤ t.params.maxScanIter) :=
    readFrameFindsTheFrameAfterNoise t [] g rest hq' hg noMarkerPair_nil hbound'
  exact ⟨_, _, hfirst, rfl, rfl, hsecond _ rfl hbound, rfl, rfl, by simp⟩

/-! ## A frame behind silence (R66, R67, R80)

Bytes that arrive at a pull are to every pull from that one on as if they had been buffered before it. -/

/-- `s` with `bs` buffered, the schedule `more`, and no move of the environment before the next access. -/
def State.holding (s : State) (bs : List Byte) (more : List (List Byte)) : State :=
  { s with rxq := bs, arrivals := [] :: more }

section
variable {s : State} {bs : List Byte} {more : List (List Byte)}

theorem envMove_arrived (hq : s.rxq = []) (ha : s.arrivals = bs :: more) : envMove s = envMove (s.holding bs more) := by
  rw [envMove_cons ha, envMove_cons (s := s.holding bs more) rfl, hq]
  simp [State.holding]

/-- A pull of an empty RXQ to which nothing is appended uses up one list of the schedule and does no more. -/
theorem pull_silent {a : List (List Byte)} (hq : s.rxq = []) (ha : s.arrivals = [] :: a) :
    pullEvent (envMove s) = .noData ∧ pullRest (envMove s) = { s with arrivals := a } := by
  have hmove : envMove s = { s with arrivals := a } := by rw [envMove_cons ha, List.append_nil]
  refine ⟨pullEvent_of_nil (by rw [hmove, hq]), ?_⟩
  rw [hmove, pullRest, hq, List.drop_nil, ← hq]

/-- Bytes that arrive after `k` silent pulls are seen as if buffered, after `k` events of no data. -/
theorem rxEvents_silence (k m : Nat) (hq : s.rxq = []) (ha : s.arrivals = List.replicate k [] ++ bs :: more) :
    rxEvents (k + m) s = List.replicate k .noData ++ rxEvents m (s.holding bs more) := by
  induction k generalizing s with
  | zero =>
    rw [Nat.zero_add, List.replicate_zero, List.nil_append]
    cases m with
    | zero => rfl
    | succ m => rw [rxEvents, rxEvents, envMove_arrived hq ha]
  | succ k ih =>
    rw [List.replicate_succ, List.cons_append] at ha
    obtain ⟨hevent, hrest⟩ := pull_silent hq ha
    have hlater := ih (s := { s with arrivals := List.replicate k [] ++ bs :: more }) hq rfl
    rw [Nat.add_right_comm, rxEvents, hevent, hrest, hlater]
    rfl

/-- The first pull after the silence leaves the streams as if its bytes had been buffered. -/
theorem afterPulls_silence (k j : Nat) (hq : s.rxq = []) (ha : s.arrivals = List.replicate k [] ++ bs :: more) :
    afterPulls (k + (j + 1)) s = afterPulls (j + 1) (s.holding bs more) := by
  induction k generalizing s with
  | zero => rw [Nat.zero_add, afterPulls, afterPulls, envMove_arrived hq ha]
  | succ k ih =>
    rw [List.replicate_succ, List.cons_append] at ha
    obtain ⟨-, hrest⟩ := pull_silent hq ha
    have hlater := ih (s := { s with arrivals := List.replicate k [] ++ bs :: more }) hq rfl
    rw [Nat.add_right_comm, afterPulls, hrest, hlater]
    rfl

end

theorem markerAt_noData_cons (es : List RxEvent) (j : Nat) : MarkerAt (.noData :: es) (j + 1) ↔ MarkerAt es j := by
  rw [markerAt_iff, markerAt_iff]
  cases j with
  | zero => cases es <;> simp [Completes]
  | succ j => rfl

/-- Silence before a first marker moves it back by as many pulls. -/
theorem FirstMarker.behind_silence {es : List RxEvent} {j : Nat} (h : FirstMarker es j) (k : Nat) :
    FirstMarker (List.replicate k .noData ++ es) (k + j) := by
  induction k with
  | zero => simpa using h
  | succ k ih =>
    obtain ⟨hmark, hleast⟩ := ih
    rw [Nat.add_right_comm]
    refine ⟨(markerAt_noData_cons _ _).2 hmark, fun i hi hi' => ?_⟩
    cases i with
    | zero => exact absurd hi'.1 (by decide)
    | succ i => exact hleast i (by omega) ((markerAt_noData_cons _ _).1 hi')

/-- Settles O23: behind the silence the frame is read as one that was buffered. -/
theorem readFrameSurvivesSilence : Obligations.ReadFrameSurvivesSilence := by
  intro s k f rest more hq ha hf hbound
  obtain ⟨m, hm⟩ := Nat.exists_eq_add_of_le (show k ≤ s.params.maxScanIter by omega)
  have hfound : FirstMarker (rxEvents m (s.holding (f.toList ++ rest) more)) 2 :=
    firstMarker_behind_noise (noise := []) rfl hf.1 noMarkerPair_nil (show 2 ≤ m by omega)
  have hpulls := afterPulls_silence k 1 hq ha
  obtain ⟨hrxq, harr⟩ := envMove_afterPulls_buffered (n := 2) (s := s.holding (f.toList ++ rest) more)
    (by simp [State.holding]; omega)
  have c : Candidate s (k + 2) f (rest ++ (more.take 2).flatten) := by
    refine ⟨?_, hf.1, ?_⟩
    · rw [hm, rxEvents_silence k m hq ha]
      exact hfound.behind_silence k
    · rw [hpulls, hrxq]
      simp [State.holding, List.drop_append]
  simp only [exec, execReadFrame, readFrame_goodCandidate c hf, afterCandidate, hpulls, harr]
  rfl

end Sys2Proof.Machine

/-!
The Command Encoder (spec 41_command_encoder.md): the frame of build_command, what the six operations leave behind, and that
none of them looks at the Reading or MODE.
-/

namespace Sys2Proof.Machine

/-! ## The frame of build_command (R81, R82) -/

theorem hiByte_toNat (v : Word16) : (hiByte v).toNat = v.toNat / 256 := by
  rw [hiByte, BitVec.extractLsb'_toNat, Nat.shiftRight_eq_div_pow]
  omega

/-- No sum of the two marker bytes and three others leaves these bounds (R82). -/
theorem commandChecksum_bounds (command : Byte) (payload : Word16) :
    0x8F ≤ (commandChecksum command payload).toNat ∧ (commandChecksum command payload).toNat ≤ 0x038C := by
  rw [commandChecksum_toNat]
  omega

/-- Offset 2 of the frame is the command, offsets 3 and 4 are the payload (R46). -/
theorem buildCommand_injective {command command' : Byte} {payload payload' : Word16}
    (h : buildCommand command payload = buildCommand command' payload') : command = command' ∧ payload = payload' := by
  have hcommand (c : Byte) (p : Word16) : (buildCommand c p)[2] = c := rfl
  have hpayload (c : Byte) (p : Word16) : beWord (buildCommand c p)[3] (buildCommand c p)[4] = p :=
    beWord_hiByte_loByte p
  exact ⟨by rw [← hcommand command payload, h, hcommand], by rw [← hpayload command payload, h, hpayload]⟩

/-- Settles O13: the high byte is the sum over 256, and the sum is at most 0x038C. -/
theorem commandChecksumNeverWraps : Obligations.CommandChecksumNeverWraps := by
  refine ⟨fun command payload => ?_, rfl, rfl, fun _ _ _ _ => buildCommand_injective⟩
  obtain ⟨hlow, hhigh⟩ := commandChecksum_bounds command payload
  refine ⟨commandChecksum_toNat command payload, hlow, hhigh, ?_⟩
  have hbyte : (buildCommand command payload)[5].toNat = (commandChecksum command payload).toNat / 256 :=
    hiByte_toNat _
  omega

/-- Settles O12: the operation's own equation, with the bytes of the frame written out. -/
theorem buildCommandAnswersTheFrame : Obligations.BuildCommandAnswersTheFrame := fun _ _ _ => rfl

/-! ## The sending operations (R84 to R88) -/

/-- Settles O14: set_passive is the send with the drain, on the first fixed frame of R47. -/
theorem setPassiveSendsThenDrains : Obligations.SetPassiveSendsThenDrains := fun s =>
  congrArg Host.Outcome.next (sendDrainAnswer_eq Config.cmdMode Config.payloadPassive s)

/-- Settles O15: the four are the plain send, each on its fixed frame of R47. -/
theorem sendingOperationsSendTheirFrames : Obligations.SendingOperationsSendTheirFrames := fun s =>
  ⟨congrArg Host.Outcome.next (sendAnswer_eq Config.cmdMode Config.payloadActive s),
    congrArg Host.Outcome.next (sendAnswer_eq Config.cmdSleep Config.payloadSleep s),
    congrArg Host.Outcome.next (sendAnswer_eq Config.cmdSleep Config.payloadWake s),
    congrArg Host.Outcome.next (sendAnswer_eq Config.cmdRead Config.payloadRead s)⟩

/-! ## The Reading and MODE (R89) -/

/-- All that the six operations do: build_command's answer, the plain send, or the send with the drain (R59). -/
theorem exec_encoder_cases {i : Instr}
    (hi : (∃ c p, i = .buildCommand c p) ∨ i ∈ [Instr.setPassive, .setActive, .sleep, .wake, .requestRead]) :
    ∃ (c : Byte) (p : Word16),
      (∀ s, exec i s = .next (respond (.okFrame (buildCommand c p)) s)) ∨
      (∀ s, exec i s = .next (sendAnswer c p s)) ∨
      (∀ s, exec i s = .next (sendDrainAnswer c p s)) := by
  simp only [List.mem_cons, List.not_mem_nil, or_false] at hi
  obtain ⟨c, p, rfl⟩ | rfl | rfl | rfl | rfl | rfl := hi
  · exact ⟨c, p, .inl fun _ => rfl⟩
  · exact ⟨_, _, .inr (.inr fun _ => rfl)⟩
  all_goals exact ⟨_, _, .inr (.inl fun _ => rfl)⟩

/-- MODE decides whether get_reading asks first, and the read after it sends nothing (R93, R94). -/
theorem execGetReading_passive_txlog {s t : State} (hm : s.mode = .passive) (h : exec .getReading s = .next t) :
    t.txlog = s.txlog ++ (buildCommand Config.cmdRead Config.payloadRead).toList := by
  cases h
  obtain ⟨-, -, htx, -⟩ := readFrame_frame (requestIfPassive s)
  rw [htx, requestIfPassive_passive hm, send_txlog]

/-- Settles O16: each of the three shapes writes TXLOG, the receive side and the response alone, by values that do not
depend on the Reading or MODE. -/
theorem encoderIgnoresReadingAndMode : Obligations.EncoderIgnoresReadingAndMode := by
  refine ⟨fun i hi s r m => ?_, fun s t u hm hactive hget => ?_⟩
  · obtain ⟨c, p, hanswer | hsend | hdrain⟩ := exec_encoder_cases hi
    · exact ⟨_, hanswer s, rfl, rfl, nofun, hanswer _⟩
    · exact ⟨_, hsend s, rfl, rfl, nofun, hsend _⟩
    · simp only [sendDrainAnswer_eq] at hdrain
      exact ⟨_, hdrain s, rfl, rfl, nofun, hdrain _⟩
  · obtain ⟨hmode, -⟩ := (Effect.of_exec hactive).mode_params_inputs
    exact execGetReading_passive_txlog (hmode.trans hm) hget

end Sys2Proof.Machine

/-!
The top level (spec 42_top_level.md): what get_reading sends before its read, and get_field where it has no value to give.
-/

namespace Sys2Proof.Machine

/-! ## get_reading by MODE (R93, R94) -/

/-- Settles O41: the request goes out before the read; without it, neither instruction is one that transmits. -/
theorem readRequestIsSentEvenOnFailure : Obligations.ReadRequestIsSentEvenOnFailure := by
  refine ⟨fun s t hm h => execGetReading_passive_txlog hm h, fun s t hm h => ?_, fun s t h => ?_⟩
  · have hquiet : ¬ Transmits .getReading s.mode := by simp [hm]
    exact (transmitLogOnlyGrows _ s t h).2 hquiet
  · have hquiet : ¬ Transmits .readFrame s.mode := by simp
    exact (transmitLogOnlyGrows _ s t h).2 hquiet

/-- Settles O39: get_reading is read_frame of `requestIfPassive`, which writes TXLOG alone, with the request of R47. -/
theorem getReadingRequestsThenReads : Obligations.GetReadingRequestsThenReads := by
  refine ⟨fun s hm => ?_, fun s hm => ?_⟩
  · exact congrArg execReadFrame (requestIfPassive_passive hm)
  · exact congrArg execReadFrame (requestIfPassive_active hm)

/-! ## get_field without a value (R96, R97) -/

theorem execGetField_beyond {s : State} {idx : BitVec 4} (hidx : Config.nFields ≤ idx.toNat) :
    execGetField idx s = .next (respond .illegalOp s) := by
  rw [execGetField, if_pos hidx, illegalOp_eq]

/-- Settles O43: the register is in range, so the absent Reading decides. -/
theorem getFieldOfAnAbsentReadingIsAbsent : Obligations.GetFieldOfAnAbsentReadingIsAbsent :=
  fun _ _ hr hidx => execGetField_absent hr (Nat.not_le.mpr hidx)

/-- Settles O44: the range check comes before any look at the Reading. -/
theorem getFieldBeyondTheRegistersIsIllegal : Obligations.GetFieldBeyondTheRegistersIsIllegal :=
  fun _ _ hidx => execGetField_beyond hidx

end Sys2Proof.Machine

/-!
Exceptions (spec 60_exceptions.md): error entry, the two causes that end a read before its checks, and which instructions
raise.
-/

namespace Sys2Proof.Machine

/-! ## Error entry (R117) -/

/-- Settles O35: the three writes of error entry are its definition. -/
theorem errorEntryWritesOnlyThese : Obligations.ErrorEntryWritesOnlyThese := fun _ _ => rfl

/-! ## The causes of the scan and of the payload read (R101, R102) -/

/-- A marker takes two pulls (R68). -/
theorem noMarker_of_length_lt_two {es : List RxEvent} (h : es.length < 2) : NoMarker es := by
  rintro k hk ⟨htwo, -⟩
  omega

/-- Settles O19: error entry from the state after all the pulls. -/
theorem readFrameWithoutMarkerEndsInNoStart : Obligations.ReadFrameWithoutMarkerEndsInNoStart := by
  intro s h
  have hnone : NoMarker (rxEvents s.params.maxScanIter s) :=
    h.elim id fun hlt => noMarker_of_length_lt_two ((rxEvents_length _ s).trans_lt hlt)
  exact congrArg Host.Outcome.next ((readFrame_noMarker hnone).trans (errorEntryWritesOnlyThese _ _))

/-- Settles O20: error entry from the state after the short block pull, which empties RXQ. -/
theorem readFrameShortRemainderEndsInShortFrame : Obligations.ReadFrameShortRemainderEndsInShortFrame := by
  intro s j hfirst hshort
  exact congrArg Host.Outcome.next
    ((readFrame_firstMarker_short hfirst hshort).trans (errorEntryWritesOnlyThese _ _))

/-! ## Who raises (R108) -/

theorem eq_read_of_mayAnswer_error {i : Instr} {c : ErrorCause} (h : mayAnswer i (.error c) = true) :
    i = .readFrame ∨ i = .getReading := by
  cases i with
  | readFrame => exact .inl rfl
  | getReading => exact .inr rfl
  | _ => cases h

/-- A command frame is answered OK when it is sent, and with its frame or ILLEGAL_OP when it is only built (R46, R81). -/
theorem exec_cmd7_answer {i : Instr} (hi : i.format = .cmd7) (s : State) :
    ∃ t r, exec i s = .next t ∧ t.response = some r ∧ ∀ c, r ≠ .error c := by
  cases i with
  | frameCommand command payload checksum =>
    obtain ⟨-, h⟩ | ⟨-, h⟩ := execFrameCommand_cases command payload checksum s
    · exact ⟨_, _, h, rfl, nofun⟩
    · exact ⟨_, _, h, rfl, nofun⟩
  | frameSetPassive => exact ⟨_, .ok, rfl, rfl, nofun⟩
  | frameSetActive => exact ⟨_, .ok, rfl, rfl, nofun⟩
  | frameRequestRead => exact ⟨_, .ok, rfl, rfl, nofun⟩
  | frameSleep => exact ⟨_, .ok, rfl, rfl, nofun⟩
  | frameWake => exact ⟨_, .ok, rfl, rfl, nofun⟩
  | _ => cases hi

/-- Settles O37: a host operation raises only where its responses include an error, and a command frame never. -/
theorem onlyTheReadsRaise : Obligations.OnlyTheReadsRaise := by
  intro i s t c hd hexec herr
  cases hformat : i.format with
  | hostOp =>
    obtain ⟨t', r, hexec', hr, hmay⟩ := everyHostOperationAnswers i s hformat
    obtain rfl : t' = t := Host.Outcome.next.inj (hexec'.symm.trans hexec)
    obtain rfl : r = .error c := Option.some.inj (hr.symm.trans herr)
    exact eq_read_of_mayAnswer_error hmay
  | cmd7 =>
    obtain ⟨t', r, hexec', hr, hne⟩ := exec_cmd7_answer hformat s
    obtain rfl : t' = t := Host.Outcome.next.inj (hexec'.symm.trans hexec)
    exact absurd (Option.some.inj (hr.symm.trans herr)) (hne c)
  | data32 => exact absurd hformat hd

end Sys2Proof.Machine

/-!
Reset and hazards (spec 70_reset_and_hazards.md): the delays, which no outcome depends on, and the errors that the integrity
check lets through.
-/

namespace Sys2Proof.Machine

/-! ## The delays (R139)

The state with other delays is `s.withDelays a b c`; each operation of the block commutes with that change. -/

/-- `s` with `a`, `b`, `c` for T_CMD_SETTLE, T_ACTIVE_SETTLE and T_RESYNC. -/
def State.withDelays (s : State) (a b c : Nat) : State :=
  { s with params := { s.params with tCmdSettle := a, tActiveSettle := b, tResync := c } }

section
variable (s : State) (a b c : Nat)

@[simp] theorem withDelays_toBlock : (s.withDelays a b c).toBlock = s.toBlock := rfl
@[simp] theorem withDelays_maxScanIter : (s.withDelays a b c).params.maxScanIter = s.params.maxScanIter := rfl

theorem envMove_withDelays : envMove (s.withDelays a b c) = (envMove s).withDelays a b c := by
  cases h : s.arrivals with
  | nil => rw [envMove_nil h, envMove_nil (s := s.withDelays a b c) h]
  | cons bs rest => rw [envMove_cons h, envMove_cons (s := s.withDelays a b c) h]; rfl

/-- The resync delay is the one place where a scan iteration could differ. -/
theorem scanPull_withDelays : scanPull (s.withDelays a b c) = (scanPull s).withDelays a b c := by
  have hevent : pullEvent ((envMove s).withDelays a b c) = pullEvent (envMove s) := rfl
  simp only [scanPull, envMove_withDelays, hevent, withDelays_toBlock, delay_eq, ite_self]
  split_ifs <;> rfl

theorem scan_withDelays (n : Nat) : scan n (s.withDelays a b c) = (scan n s).withDelays a b c := by
  induction n generalizing s with
  | zero => rfl
  | succ n ih =>
    simp only [scan, scanPull_withDelays, withDelays_toBlock, ih]
    cases (scanPull s).phase <;> rfl

theorem takeRemainder_withDelays : takeRemainder (s.withDelays a b c) = (takeRemainder s).withDelays a b c := by
  have hbytes : blockBytes Config.remainderLen (s.withDelays a b c) = blockBytes Config.remainderLen s := rfl
  simp only [takeRemainder, hbytes]
  split_ifs <;> rfl

/-- The settle delay of active mode is the one place where a payload read could differ. -/
theorem pullPayload_withDelays : pullPayload (s.withDelays a b c) = (pullPayload s).withDelays a b c := by
  simp only [pullPayload, activeSettle_eq, envMove_withDelays, takeRemainder_withDelays]

theorem checkFrame_withDelays : checkFrame (s.withDelays a b c) = (checkFrame s).withDelays a b c := by
  rw [checkFrame, checkFrame, withDelays_toBlock]
  split_ifs <;> rfl

/-- Every phase commutes, so the read takes the same way. -/
theorem readFrame_withDelays : readFrame (s.withDelays a b c) = (readFrame s).withDelays a b c := by
  have henter : enterScan (s.withDelays a b c) = (enterScan s).withDelays a b c := rfl
  simp only [readFrame, withDelays_maxScanIter, henter, scan_withDelays, pullPayload_withDelays,
    checkFrame_withDelays, withDelays_toBlock]
  split
  · split <;> rfl
  · rfl

theorem requestIfPassive_withDelays :
    requestIfPassive (s.withDelays a b c) = (requestIfPassive s).withDelays a b c := by
  cases h : s.mode with
  | passive => rw [requestIfPassive_passive h, requestIfPassive_passive (s := s.withDelays a b c) h]; rfl
  | active => rw [requestIfPassive_active h, requestIfPassive_active (s := s.withDelays a b c) h]

/-- Sending takes the settle delay, and the drain a move of the environment. -/
theorem sendDrainAnswer_withDelays (command : Byte) (payload : Word16) :
    sendDrainAnswer command payload (s.withDelays a b c) = (sendDrainAnswer command payload s).withDelays a b c := by
  rw [sendDrainAnswer_eq, sendDrainAnswer_eq]
  rfl

end

/-- The answer of get_field is decided by the Reading alone (R95 to R97). -/
theorem execGetField_answer_of_reading (idx : BitVec 4) (x : Option Reading) :
    ∃ r, ∀ s : State, s.reading = x → execGetField idx s = .next (respond r s) := by
  by_cases hidx : Config.nFields ≤ idx.toNat
  · exact ⟨.illegalOp, fun _ _ => execGetField_beyond hidx⟩
  · cases x with
    | none => exact ⟨.absent, fun _ hs => execGetField_absent hs hidx⟩
    | some x =>
      cases hv : readingField x idx with
      | some v => exact ⟨.present v, fun _ hs => execGetField_present hs hidx hv⟩
      | none => exact ⟨.illegalOp, fun _ hs => by simp only [execGetField, if_neg hidx, hs, hv, illegalOp_eq]⟩

/-- Settles O27: the reads and the drain commute with a change of the delays, and the other instructions do by their
equations. -/
theorem delaysChangeNothing : Obligations.DelaysChangeNothing := by
  intro i s a b c
  change ∃ t, exec i s = .next t ∧ exec i (s.withDelays a b c) = .next (t.withDelays a b c)
  have hdrain := sendDrainAnswer_withDelays s a b c Config.cmdMode Config.payloadPassive
  cases i with
  | setPassive => exact ⟨_, rfl, congrArg _ hdrain⟩
  | frameSetPassive => exact ⟨_, rfl, congrArg _ hdrain⟩
  | readFrame => exact ⟨_, rfl, congrArg _ (readFrame_withDelays s a b c)⟩
  | getReading =>
    refine ⟨_, rfl, congrArg Host.Outcome.next ?_⟩
    rw [requestIfPassive_withDelays, readFrame_withDelays]
  | getField idx =>
    obtain ⟨r, hr⟩ := execGetField_answer_of_reading idx s.reading
    exact ⟨_, hr s rfl, hr _ rfl⟩
  | frameCommand command payload checksum =>
    simp only [exec, execFrameCommand]
    split_ifs <;> exact ⟨_, rfl, rfl⟩
  | _ => exact ⟨_, rfl, rfl⟩

/-! ## The integrity check (R73, R143) -/

/-- The checksum sees no more of offsets 0 to 29 than their sum modulo 256. -/
theorem dataChecksum_toNat (f : DataFrame) :
    (dataChecksum f).toNat = ((f.toList.take 30).map BitVec.toNat).sum % 256 := by
  rw [dataChecksum, BitVec.toNat_ofNat]
  rfl

theorem checksumPasses_congr {f g : DataFrame} (h31 : f[31] = g[31])
    (hsum : ((f.toList.take 30).map BitVec.toNat).sum % 256 = ((g.toList.take 30).map BitVec.toNat).sum % 256) :
    checksumPasses f ↔ checksumPasses g := by
  have hsame : dataChecksum f = dataChecksum g :=
    BitVec.eq_of_toNat_eq (by rw [dataChecksum_toNat, hsum, dataChecksum_toNat])
  rw [checksumPasses, checksumPasses, hsame, h31]

/-- Settles O30: a reordering keeps the sum, and the high checksum byte takes no part (O29). -/
theorem weakCheckMissesTheseErrors : Obligations.WeakCheckMissesTheseErrors := by
  refine ⟨fun f g => checksumPasses_congr, fun f b => ?_, fun f g h31 hperm => checksumPasses_congr h31 ?_⟩
  · obtain ⟨-, hpasses, -⟩ := highChecksumByteIsIgnored f b
    exact hpasses
  · rw [(hperm.map BitVec.toNat).sum_eq]

end Sys2Proof.Machine
